-- ==== Sys2Proof/Word.lean ====
section
/-!
DEFINITION. The word types of BDA-CORE: the Q2.14 word (spec/30_encoding.md R64) and the window
(spec/20_memory.md R46). Everything computed on them stands under Sys2Proof/Machine/.
-/

namespace Sys2Proof

/-- A Q2.14 word: coefficients, the accumulator and the threshold (R63, R64, R81). -/
abbrev Fx := BitVec 16

/-- A 32-bit command or status word (R68, R38). -/
abbrev Word := BitVec 32

/-- One window cell, an unsigned CELL_BITS-wide value (R46). Its bound is `Window.shaped`'s. -/
abbrev Cell := Nat

/-- A window: its rows from the top, each with its cells from the left (R46). That it is WIN_H x WIN_W cells of
CELL_BITS bits is `Window.shaped`, which decoding and every window-source answer give. -/
structure Window where
  rows : List (List Cell)
  deriving DecidableEq, Repr, Inhabited

/-- The cell in row `r`, column `c` (WinRead's storage). The rules read only cells inside the window (R49); a pair of
indices outside its rows gives 0 (log entry 16). -/
def Window.cell (win : Window) (r c : Nat) : Cell :=
  (win.rows.getD r []).getD c 0

end Sys2Proof
end

