-- ==== Sys2Proof/Machine/Elaboration.lean ====
section
/-!
DEFINITION. The parameters of a BDA-CORE build (spec/00_scope.md R8, R9) and the checks that admit or refuse one at
elaboration (spec/40_fixed_point.md R88, spec/60_exceptions.md R139).
-/

namespace Sys2Proof

/-- The kernel coefficients, as raw integers (R8, R88). -/
structure KernelTable where
  kc : Int
  ko : Int
  k11 : Int
  k00 : Int
  k01 : Int
  k02 : Int
  k10 : Int
  k20 : Int
  deriving DecidableEq, Repr, Inhabited

/-- The elaboration parameters (R8, R9). -/
structure Params where
  winH : Nat
  winW : Nat
  cellBits : Nat
  inDepth : Nat
  outDepth : Nat
  kernel : KernelTable
  deriving DecidableEq, Repr, Inhabited

/-! ### Elaboration checks -/

/-- The named checks of a configuration: the ranges of R9, then the checks of R88. -/
inductive Check where
  | winHRange | winWRange | cellBitsRange | inDepthRange | outDepthRange
  | wfRange | wfCenter | wfOrth | wfInnerPos | wfOuterNeg | wfPeak | wfNoOverflow
  deriving DecidableEq, Repr

/-- Is `x` the integer of a 16-bit word (WF_RANGE of R88)? -/
def inFxRange (x : Int) : Bool := decide (-32768 ≤ x ∧ x ≤ 32767)

/-- The sum of all negative entries of the table (WF_NO_OVERFLOW of R88). -/
def KernelTable.negSum (k : KernelTable) : Int :=
  4 * k.k00 + 4 * k.k01 + 2 * k.k02 + 4 * k.k10 + 2 * k.k20

/-- The sum of all positive entries of the table (WF_NO_OVERFLOW of R88). -/
def KernelTable.posSum (k : KernelTable) : Int := k.kc + 4 * k.ko + 4 * k.k11

/-- S_ALL, the response to an all-lit window (R93). -/
def KernelTable.sAll (k : KernelTable) : Int :=
  k.kc + 4 * k.ko + 4 * k.k11 + 4 * k.k00 + 4 * k.k01 + 2 * k.k02 + 4 * k.k10 + 2 * k.k20

/-- Does the configuration pass the check? (R9, R88) -/
def Check.passes (p : Params) : Check → Bool
  | .winHRange => decide (5 ≤ p.winH ∧ p.winH ≤ 16384)
  | .winWRange => decide (5 ≤ p.winW ∧ p.winW ≤ 16384)
  | .cellBitsRange => decide (1 ≤ p.cellBits ∧ p.cellBits ≤ 8)
  | .inDepthRange => decide (1 ≤ p.inDepth)
  | .outDepthRange => decide (1 ≤ p.outDepth)
  | .wfRange =>
    inFxRange p.kernel.kc && inFxRange p.kernel.ko && inFxRange p.kernel.k11 && inFxRange p.kernel.k00 &&
      inFxRange p.kernel.k01 && inFxRange p.kernel.k02 && inFxRange p.kernel.k10 && inFxRange p.kernel.k20
  | .wfCenter => decide (5212 ≤ p.kernel.kc ∧ p.kernel.kc ≤ 5214)
  | .wfOrth => decide (1511 ≤ p.kernel.ko ∧ p.kernel.ko ≤ 1513)
  | .wfInnerPos => decide (0 < p.kernel.k11 ∧ 0 < p.kernel.ko)
  | .wfOuterNeg =>
    decide (p.kernel.k00 < 0 ∧ p.kernel.k01 < 0 ∧ p.kernel.k02 < 0 ∧ p.kernel.k10 < 0 ∧ p.kernel.k20 < 0)
  | .wfPeak => decide (p.kernel.k11 ≤ p.kernel.kc)
  | .wfNoOverflow => decide (-32768 ≤ p.kernel.negSum ∧ p.kernel.posSum ≤ 32767)

/-- The checks of R88, which look at the kernel table only. -/
def Check.kernelChecks : List Check :=
  [.wfRange, .wfCenter, .wfOrth, .wfInnerPos, .wfOuterNeg, .wfPeak, .wfNoOverflow]

/-- Every check of a configuration (R9, R88). -/
def Check.all : List Check :=
  [.winHRange, .winWRange, .cellBitsRange, .inDepthRange, .outDepthRange] ++ Check.kernelChecks

/-- The checks that refuse a configuration at elaboration (R9, R139); none when it is admissible. -/
def Params.refusedBy (p : Params) : List Check := Check.all.filter fun c => !(c.passes p)

/-- A configuration for which a machine exists (R9, R88, R139). -/
def Params.admissible (p : Params) : Bool := Check.all.all fun c => c.passes p

/-- A table that passes the checks of R88. -/
def KernelTable.admissible (k : KernelTable) : Bool := Check.kernelChecks.all fun c => c.passes { (default : Params) with kernel := k }

/-- The defaults of R8 and R9 with open coefficients and depths filled in by their arguments. -/
def Params.withDefaults (k11 k00 k01 k02 k10 k20 : Int) (inDepth outDepth : Nat) : Params :=
  { winH := 5, winW := 5, cellBits := 1, inDepth := inDepth, outDepth := outDepth,
    kernel := { kc := 5213, ko := 1512, k11 := k11, k00 := k00, k01 := k01, k02 := k02, k10 := k10, k20 := k20 } }

end Sys2Proof
end

