-- ==== Sys2Proof/Machine/Ports.lean ====
section
/-!
DEFINITION. What stands on the ports of BDA-CORE (spec/10_state.md R33-R36, R43; spec/42_driver.md R111-R118): command
offers, window-source requests, answers and responses, and what the three agents put forward.
-/

namespace Sys2Proof.Machine

/-- The three agents that take steps (R22). -/
inductive Agent where
  | driver  -- the streaming driver
  | ws      -- the external window source
  | host    -- the host
  deriving DecidableEq, Repr

/-- A command offer: the 32-bit word and the WINDOW operand beside it, as the raw pattern of R67 (R68, R117). -/
structure Offer where
  word : Word
  winBits : Nat
  deriving DecidableEq, Repr, Inhabited

/-- A window-source request (R35). -/
structure WsRequest where
  p : BitVec 28
  row : BitVec 14
  col : BitVec 14
  s : Bool
  deriving DecidableEq, Repr, Inhabited

/-- A window-source response held in WS_RSP (R36). -/
structure WsResponse where
  win : Window
  startRow : BitVec 16
  startCol : BitVec 16
  deriving DecidableEq, Repr, Inhabited

/-- What the window source draws: the response with its window still a raw pattern (R113, R73). -/
structure WsAnswer where
  winBits : Nat
  startRow : BitVec 16
  startCol : BitVec 16
  deriving DecidableEq, Repr, Inhabited

/-- What an agent puts forward, before decoding. Only a command has a word to decode (R65, R74, R78). -/
inductive Action where
  | command (o : Offer)   -- HOST offers a command (R117)
  | push (smp : Bool)     -- HOST (R115)
  | pop                   -- HOST (R116)
  | read (n : Fin 4)      -- HOST (R118, an index of a four-valued type: R38)
  | reset                 -- HOST (R150)
  | issue                 -- DRIVER (R111)
  | complete              -- DRIVER (R112)
  | answer                -- WS (R113)
  deriving DecidableEq, Repr, Inhabited

/-- One choice of the scheduler (R22, R135; log entry 3): an agent's action, the command step on the offer that already
stands at the command port (R117: "it is accepted once the port is ready"), or the host's word that it offers no further
command in this run (R125; log entry 18). -/
inductive Turn where
  | act (a : Action)
  | commandStep
  | endCommands
  deriving DecidableEq, Repr, Inhabited

end Sys2Proof.Machine
end

