-- ==== Sys2Proof/Config.lean ====
section
/-!
DEFINITION. The block's configuration (spec/00_scope.md R8, R9) and the free values: opaque constants with no body, so
that a theorem about the machine holds for every configuration, every schedule and every window source.
-/

namespace Sys2Proof

/-- Free: which window height the block was built with (log entry 1). -/
opaque Config.freeWinH : Nat
/-- Free: which window width (log entry 1). -/
opaque Config.freeWinW : Nat
/-- Free: which cell width (log entry 1). -/
opaque Config.freeCellBits : Nat
/-- Free: which sample-stream capacity (log entry 1). -/
opaque Config.freeInDepth : Nat
/-- Free: which flag-stream capacity (log entry 1). -/
opaque Config.freeOutDepth : Nat
/-- Free: which kernel table (log entry 2). -/
opaque Config.freeKernel : KernelTable

/-- The coefficients taken where the free table is not admissible (log entry 2). Any admissible numbers would do: no
theorem can tell whether they are taken. -/
def Config.fallbackKernel : KernelTable :=
  { kc := 5213, ko := 1512, k11 := 5213, k00 := -1000, k01 := -1000, k02 := -2000, k10 := -1000, k20 := -2000 }

/-- The block's kernel table: any admissible one (R8, R88). -/
def Config.kernel : KernelTable :=
  if Config.freeKernel.admissible then Config.freeKernel else Config.fallbackKernel

/-- The block's configuration: any admissible one (R9, R139). Each range is written so that every value of R9 occurs:
WIN_H and WIN_W in 5..16384, CELL_BITS in 1..8, the depths from 1. -/
def Config.params : Params :=
  { winH := Config.freeWinH % 16380 + 5
    winW := Config.freeWinW % 16380 + 5
    cellBits := Config.freeCellBits % 8 + 1
    inDepth := Config.freeInDepth + 1
    outDepth := Config.freeOutDepth + 1
    kernel := Config.kernel }

/-- Free: the scheduler's choices, by the number of turns drawn before (R22, R135; log entry 3). -/
opaque Config.schedule : Nat → Machine.Turn

/-- Free: WinSrc, the window source's answers (R18, R113; log entry 4), by the number of answers drawn before, the
source's history and the request. -/
opaque Config.winSrc : Nat → List Machine.WsRequest → Machine.WsRequest → Machine.WsAnswer

end Sys2Proof
end

