-- ==== Sys2Proof/Syntax.lean ====
section
/-!
DEFINITION. The transactions of BDA-CORE, one constructor per row of spec/opcode_table.json.
-/

namespace Sys2Proof

/-- A decoded transaction. The four reserved rows keep their operand bits, because the fault they raise records the
whole command word (R71, R130). -/
inductive Instr where
  /-- FRAME_START: H then W, in the order of fields A and B (R69, R110). -/
  | frameStart (h w : BitVec 14)
  /-- EVAL: start_row, start_col and the WINDOW operand (R70, R101). -/
  | eval (row col : BitVec 14) (win : Window)
  /-- OP = 0b0000 (R71). -/
  | reservedOp0 (x : BitVec 28)
  /-- OP = 0b0011 (R71). -/
  | reservedOp3 (x : BitVec 28)
  /-- OP = 0b01xx (R71). -/
  | reservedOp4To7 (x : BitVec 30)
  /-- OP = 0b1xxx (R71). -/
  | reservedOp8ToF (x : BitVec 31)
  /-- PIXEL, phase ISSUE (R111). -/
  | pixelIssue
  /-- PIXEL, phase COMPLETE (R112). -/
  | pixelComplete
  /-- The window source's answer (R113). -/
  | wsAnswer
  /-- Push a sample (R115). -/
  | push (smp : Bool)
  /-- Pop a flag (R116). -/
  | pop
  /-- Read a status word (R118, R38). -/
  | read (n : Fin 4)
  /-- Reset (R150). -/
  | reset
  deriving DecidableEq, Repr

end Sys2Proof
end

