-- ==== Sys2Proof/WellFormed.lean ====
section
/-!
DEFINITION. Well-formed transactions: the fields of a command are bounded by their types (spec/30_encoding.md R68), so
the one check is that EVAL's window operand has the shape of the configuration (spec/20_memory.md R46). Decoding gives
only well-formed transactions.
-/

namespace Sys2Proof

/-- R46: the window has WIN_H rows. -/
def Window.rowCountOk (cfg : Params) (win : Window) : Bool := win.rows.length == cfg.winH

/-- R46: every row has WIN_W cells. -/
def Window.rowLengthsOk (cfg : Params) (win : Window) : Bool := win.rows.all fun row => row.length == cfg.winW

/-- R46: every cell is a CELL_BITS-wide unsigned value. -/
def Window.cellsOk (cfg : Params) (win : Window) : Bool :=
  win.rows.all fun row => row.all fun v => decide (v < 2 ^ cfg.cellBits)

/-- R46: a WIN_H x WIN_W array of CELL_BITS-wide cells. -/
def Window.shaped (cfg : Params) (win : Window) : Bool :=
  win.rowCountOk cfg && win.rowLengthsOk cfg && win.cellsOk cfg

/-- A transaction whose operands are those the block's ports can carry (R67, R68). -/
def Instr.wellFormed (cfg : Params) : Instr → Bool
  | .frameStart _ _ => true
  | .eval _ _ win => win.shaped cfg
  | .reservedOp0 _ => true
  | .reservedOp3 _ => true
  | .reservedOp4To7 _ => true
  | .reservedOp8ToF _ => true
  | .pixelIssue => true
  | .pixelComplete => true
  | .wsAnswer => true
  | .push _ => true
  | .pop => true
  | .read _ => true
  | .reset => true

end Sys2Proof
end

