-- ==== Sys2Proof/Decode.lean ====
section
/-!
DEFINITION. The formats of spec/30_encoding.md: the WINDOW layout (R67), the command decoder, total on all 2^32 words
(R68-R71, R74), the encoder written from the same rules, and the packed window-source channel (R72, R73).
-/

namespace Sys2Proof

open Machine (Offer Action WsRequest WsResponse WsAnswer)

/-! ### The WINDOW format (R67) -/

/-- Cell (r, c) of the raw pattern: bits (r*WIN_W + c)*CELL_BITS up, CELL_BITS of them. -/
def windowField (cfg : Params) (bits r c : Nat) : Cell :=
  bits / 2 ^ ((r * cfg.winW + c) * cfg.cellBits) % 2 ^ cfg.cellBits

/-- The window whose cell (r, c) is `f r c`, for r < WIN_H and c < WIN_W. -/
def Window.ofFn (cfg : Params) (f : Nat → Nat → Cell) : Window :=
  { rows := (List.range cfg.winH).map fun r => (List.range cfg.winW).map fun c => f r c }

/-- The window of a raw pattern. Every pattern is legal; bits above WIN_H x WIN_W x CELL_BITS are on no wire of the
port and are not read (R67, log entry 16). -/
def Window.ofBits (cfg : Params) (bits : Nat) : Window := Window.ofFn cfg (windowField cfg bits)

/-- Cells packed CELL_BITS each, the first in the low bits. -/
def packCells (cellBits : Nat) : List Cell → Nat
  | [] => 0
  | v :: vs => v + 2 ^ cellBits * packCells cellBits vs

/-- The raw pattern of a window: its cells in raster order, cell (0, 0) in the low bits. -/
def Window.toBits (cfg : Params) (win : Window) : Nat := packCells cfg.cellBits win.rows.flatten

/-! ### Command words (R68-R71, R74) -/

/-- Field A of a command word, CMD[27:14] (R68). -/
def fieldA (cmd : Word) : BitVec 14 := cmd.extractLsb' 14 14

/-- Field B of a command word, CMD[13:0] (R68). -/
def fieldB (cmd : Word) : BitVec 14 := cmd.extractLsb' 0 14

/-- The opcode CMD[31:28] (R68). -/
def fieldOp (cmd : Word) : BitVec 4 := cmd.extractLsb' 28 4

/-- R74 with the table's four reserved rows told apart: OP 1 and 2 are the two commands, every other word is reserved.
`win` is the decoded window operand, which only EVAL takes. Legality of a field is not looked at here. -/
def decodeCommand (cmd : Word) (win : Window) : Instr :=
  if fieldOp cmd = 1#4 then .frameStart (fieldA cmd) (fieldB cmd)
  else if fieldOp cmd = 2#4 then .eval (fieldA cmd) (fieldB cmd) win
  else if fieldOp cmd = 0#4 then .reservedOp0 (cmd.extractLsb' 0 28)
  else if fieldOp cmd = 3#4 then .reservedOp3 (cmd.extractLsb' 0 28)
  else if cmd.extractLsb' 30 2 = 1#2 then .reservedOp4To7 (cmd.extractLsb' 0 30)
  else .reservedOp8ToF (cmd.extractLsb' 0 31)

/-- The decoder: total, and never a refusal (R74). Driver steps, the window source's step and host actions have no word
to decode (R65, R78). -/
def decode (cfg : Params) : Action → Instr
  | .command o => decodeCommand o.word (Window.ofBits cfg o.winBits)
  | .push smp => .push smp
  | .pop => .pop
  | .read n => .read n
  | .reset => .reset
  | .issue => .pixelIssue
  | .complete => .pixelComplete
  | .answer => .wsAnswer

/-- The command word of FRAME_START (R69): 0001, H, W. -/
def frameStartWord (h w : BitVec 14) : Word := 1#4 ++ h ++ w

/-- The command word of EVAL (R70): 0010, start_row, start_col. -/
def evalWord (row col : BitVec 14) : Word := 2#4 ++ row ++ col

/-- The word of a reserved command with OP 0 (R71). -/
def reservedOp0Word (x : BitVec 28) : Word := 0#4 ++ x

/-- The word of a reserved command with OP 3 (R71). -/
def reservedOp3Word (x : BitVec 28) : Word := 3#4 ++ x

/-- The word of a reserved command with OP 4 to 7 (R71). -/
def reservedOp4To7Word (x : BitVec 30) : Word := 1#2 ++ x

/-- The word of a reserved command with OP 8 to 15 (R71). -/
def reservedOp8ToFWord (x : BitVec 31) : Word := 1#1 ++ x

/-- The command word of a transaction that is a command (R68). -/
def commandWord : Instr → Option Word
  | .frameStart h w => some (frameStartWord h w)
  | .eval row col _ => some (evalWord row col)
  | .reservedOp0 x => some (reservedOp0Word x)
  | .reservedOp3 x => some (reservedOp3Word x)
  | .reservedOp4To7 x => some (reservedOp4To7Word x)
  | .reservedOp8ToF x => some (reservedOp8ToFWord x)
  | .pixelIssue => none
  | .pixelComplete => none
  | .wsAnswer => none
  | .push _ => none
  | .pop => none
  | .read _ => none
  | .reset => none

/-- The encoder: what an agent puts forward for a transaction. A command that takes no window operand has none on the
window port (R68). -/
def encode (cfg : Params) : Instr → Action
  | .frameStart h w => .command ⟨frameStartWord h w, 0⟩
  | .eval row col win => .command ⟨evalWord row col, win.toBits cfg⟩
  | .reservedOp0 x => .command ⟨reservedOp0Word x, 0⟩
  | .reservedOp3 x => .command ⟨reservedOp3Word x, 0⟩
  | .reservedOp4To7 x => .command ⟨reservedOp4To7Word x, 0⟩
  | .reservedOp8ToF x => .command ⟨reservedOp8ToFWord x, 0⟩
  | .pixelIssue => .issue
  | .pixelComplete => .complete
  | .wsAnswer => .answer
  | .push smp => .push smp
  | .pop => .pop
  | .read n => .read n
  | .reset => .reset

/-- The instruction the decoder reads from a table word: a command is exactly one 32-bit word (R76). The window port
carries zeros. Rows of other widths have no command word (log entry 13). -/
def decodeTableWord (nbits w : Nat) : Option Instr :=
  if nbits = 32 then some (decode Config.params (.command ⟨BitVec.ofNat 32 w, 0⟩)) else none

/-! ### The window-source channel (R72, R73) -/

/-- WSREQ: p in the low bits, then row, col and the sample (R72). -/
def packWsRequest (q : WsRequest) : BitVec 57 := BitVec.ofBool q.s ++ q.col ++ q.row ++ q.p

/-- The request of a WSREQ word (R72). -/
def unpackWsRequest (w : BitVec 57) : WsRequest :=
  { p := w.extractLsb' 0 28, row := w.extractLsb' 28 14, col := w.extractLsb' 42 14, s := w.getLsbD 56 }

/-- WSRSP: start_col in bits 15..0, start_row in bits 31..16, the window above (R73). -/
def packWsResponse (cfg : Params) (rsp : WsResponse) : Nat :=
  rsp.startCol.toNat + 2 ^ 16 * rsp.startRow.toNat + 2 ^ 32 * rsp.win.toBits cfg

/-- The answer of a WSRSP word (R73). -/
def unpackWsAnswer (w : Nat) : WsAnswer :=
  { winBits := w / 2 ^ 32, startRow := BitVec.ofNat 16 (w / 2 ^ 16), startCol := BitVec.ofNat 16 w }

/-- The response of an answer: its window takes the shape its type gives it (R113). -/
def decodeAnswer (cfg : Params) (a : WsAnswer) : WsResponse :=
  { win := Window.ofBits cfg a.winBits, startRow := a.startRow, startCol := a.startCol }

end Sys2Proof
end

