-- ==== Sys2Proof/Machine/FixedPoint.lean ====
section
/-!
DEFINITION. The numeric type of spec/40_fixed_point.md: Q2.14 words, quantization, the add primitive and the threshold.
-/

namespace Sys2Proof.Machine

/-- sint16: the two's complement integer of a word (R12, R64; log entry 12). -/
def sint16 (v : Fx) : Int := v.toInt

/-- wrap16: the 16-bit pattern of an integer modulo 2^16 (R13). -/
def wrap16 (x : Int) : Fx := BitVec.ofInt 16 x

/-- real(v) = sint16(v) / 2^14 (R12, R64). -/
def fxReal (v : Fx) : Rat := mkRat (sint16 v) (2 ^ 14)

/-- Quant of the decimal constant num / den, rounding toward minus infinity (R82; log entry 12). -/
def quant (num : Int) (den : Nat) : Fx := wrap16 ((num * 2 ^ 14) / (den : Int))

/-- FX_ADD (R83; log entry 12). -/
def fxAdd (a b : Fx) : Fx := wrap16 (sint16 a + sint16 b)

/-- THRESH = Quant(0.490) (R7, R25, R89). -/
def thresh : Fx := quant 490 1000

end Sys2Proof.Machine
end

