-- ==== Sys2Proof/Machine/State.lean ====
section
/-!
DEFINITION. The state of BDA-CORE (spec/10_state.md), all of it plain data, and the state after reset (R44, R150).
-/

namespace Sys2Proof.Machine

/-- The codes of FAULT_CAUSE (spec/60_exceptions.md R130). Codes 5 to 15 are never raised, so they have no name. -/
inductive FaultCause where
  /-- Code 0: no fault since reset. -/
  | noFault
  /-- Code 1, CMD_RESERVED: the command step met a reserved OP. -/
  | cmdReserved
  /-- Code 2, FRAME_ZERO: FRAME_START with a zero dimension. -/
  | frameZero
  /-- Code 3, EVAL_OFFSET: EVAL with an offset outside the window. -/
  | evalOffset
  /-- Code 4, SRC_OFFSET: the window source answered an offset outside the window. -/
  | srcOffset
  deriving DecidableEq, Repr

/-- Why the machine would stop. BDA-CORE has no such event: a fault of R130 sets the sticky fault registers and the
host goes on reading, popping, pushing and resetting (R132), so it is a next state and nobody raises a `Fault`. Having
no constructor is safe: no transaction is cut short (log entry 9). -/
inductive Fault where
  deriving DecidableEq, Repr

/-- Why a transaction has no meaning. -/
inductive Refusal where
  /-- Raised only by an arm of `exec` whose transaction has no meaning yet. Safe: nothing is said of that transaction.
  No arm raises it now. -/
  | notModelled (mnemonic : String)
  deriving DecidableEq, Repr

/-- The state. The fields up to `cmdOffer` are the spec's (R27-R36, R43); the rest are the model's own. -/
structure State where
  /-- BUSY (R27). -/
  busy : Bool
  /-- DONE (R28). -/
  done : Bool
  /-- FAULT (R29). -/
  fault : Bool
  /-- FAULT_CAUSE (R29, R130). -/
  faultCause : FaultCause
  /-- FAULT_INFO (R29, R130). -/
  faultInfo : Word
  /-- EVAL_VALID (R30). -/
  evalValid : Bool
  /-- EVAL_FLAG (R30). -/
  evalFlag : Bool
  /-- FRAME_W (R31). -/
  frameW : BitVec 14
  /-- FRAME_H (R31). -/
  frameH : BitVec 14
  /-- PIX_COUNT (R32). -/
  pixCount : BitVec 28
  /-- S_IN, head first (R33). -/
  sIn : List Bool
  /-- F_OUT, head first (R34). -/
  fOut : List Bool
  /-- WS_REQ (R35). -/
  wsReq : Option WsRequest
  /-- WS_RSP (R36). -/
  wsRsp : Option WsResponse
  /-- The window source's history since reset, oldest first (R43, R113). -/
  wsHistory : List WsRequest
  /-- The offer at the command port, not yet accepted (R43, R117). -/
  cmdOffer : Option Offer
  /-- Model's own: the flags POP has returned since reset, oldest first (R116, R125; log entry 6). -/
  popped : List Bool
  /-- Model's own: the words READ has returned since reset, oldest first (R118; log entry 6). -/
  statusReads : List Word
  /-- Model's own: the host offers no further command in this run (R125; log entry 18). -/
  commandsEnded : Bool
  /-- Model's own: turns already chosen, next first (R22, R135; log entry 3). -/
  agenda : List Turn
  /-- Model's own: turns drawn so far from the free schedule (log entry 3). -/
  turns : Nat
  /-- Model's own: answers drawn so far from the free window source (log entry 4). -/
  draws : Nat
  deriving DecidableEq, Repr

/-- The launch state: after RESET (R44, R150, R152), with no turn chosen and nothing drawn. -/
def State.reset : State :=
  { busy := false
    done := false
    fault := false
    faultCause := .noFault
    faultInfo := 0#32
    evalValid := false
    evalFlag := false
    frameW := 0#14
    frameH := 0#14
    pixCount := 0#28
    sIn := []
    fOut := []
    wsReq := none
    wsRsp := none
    wsHistory := []
    cmdOffer := none
    popped := []
    statusReads := []
    commandsEnded := false
    agenda := []
    turns := 0
    draws := 0 }

end Sys2Proof.Machine
end

