-- ==== Sys2Proof/Machine/Flags.lean ====
section
/-!
DEFINITION. Every flag BDA-CORE computes: the threshold comparator (spec/40_fixed_point.md R84) and the words of the
status bundle (spec/10_state.md R38-R41).
-/

namespace Sys2Proof.Machine

/-- FX_GE: signed, inclusive (R84). -/
def fxGe (a t : Fx) : Bool := decide (sint16 t ≤ sint16 a)

/-- The 4-bit code of a fault cause (R130). -/
def faultCode : FaultCause → BitVec 4
  | .noFault => 0#4
  | .cmdReserved => 1#4
  | .frameZero => 2#4
  | .evalOffset => 3#4
  | .srcOffset => 4#4

/-- The STATUS word (R39). -/
def statusWord (s : State) : Word :=
  0#20 ++ faultCode s.faultCause ++ 0#3 ++ BitVec.ofBool s.evalFlag ++ BitVec.ofBool s.evalValid ++
    BitVec.ofBool s.fault ++ BitVec.ofBool s.done ++ BitVec.ofBool s.busy

/-- The FRAME_DIM word (R40). -/
def frameDimWord (s : State) : Word := 0#4 ++ s.frameH ++ s.frameW

/-- The PIX_COUNT word (R41). -/
def pixCountWord (s : State) : Word := 0#4 ++ s.pixCount

/-- The status bundle: words 0 to 3 (R38). -/
def statusBundle (s : State) : Fin 4 → Word
  | 0 => statusWord s
  | 1 => frameDimWord s
  | 2 => pixCountWord s
  | 3 => s.faultInfo

end Sys2Proof.Machine
end

