-- ==== Sys2Proof/Machine/Operands.lean ====
section
/-!
DEFINITION. The two read-only address spaces of spec/20_memory.md and how an evaluation addresses them: window cells
through toroidal coordinates (R46-R52), and the kernel table by its quadrant (R53; spec/40_fixed_point.md R86, R87).
-/

namespace Sys2Proof.Machine

/-- Row 0..4 or column 0..4 of the kernel (R24; KSIZE of R7). -/
abbrev KIdx := Fin 5

/-- The indices 0..4 in order. -/
def kernelIndices : List KIdx := [0, 1, 2, 3, 4]

/-- The 25 kernel positions, i-major and j-minor (R100). -/
def kernelPositions : List (KIdx × KIdx) :=
  kernelIndices.flatMap fun i => kernelIndices.map fun j => (i, j)

/-- Wrapped coordinate: (offset + delta) mod dimension (R48, R49). -/
def wrapCoord (dim start delta : Nat) : Nat := (start + delta) % dim

/-- A lit cell is a nonzero one (R47). -/
def lit (v : Cell) : Bool := v != 0

/-- Is the cell under kernel position (i, j) lit, for the patch at (r0, c0)? (R47, R48) -/
def litAt (cfg : Params) (win : Window) (r0 c0 : Nat) (i j : KIdx) : Bool :=
  lit (win.cell (wrapCoord cfg.winH r0 i) (wrapCoord cfg.winW c0 j))

/-- The upper-left quadrant of the table (R86, R87). -/
def kernelQuadrant (k : KernelTable) : Nat → Nat → Int
  | 0, 0 => k.k00
  | 0, 1 => k.k01
  | 0, _ => k.k02
  | 1, 0 => k.k10
  | 1, 1 => k.k11
  | 1, _ => k.ko
  | _, 0 => k.k20
  | _, 1 => k.ko
  | _, _ => k.kc

/-- The coefficient at (i, j) as an integer: Q[min(i, 4-i)][min(j, 4-j)] (R86). -/
def kernelInt (k : KernelTable) (i j : KIdx) : Int :=
  kernelQuadrant k (min i.val (4 - i.val)) (min j.val (4 - j.val))

/-- KRead: the 16-bit word KROM[i][j] (R15, R53). -/
def kRead (k : KernelTable) (i j : KIdx) : Fx := wrap16 (kernelInt k i j)

/-- Is the offset inside the window's bounds? (precondition of R48 and R100) -/
def offsetOk (cfg : Params) (r0 c0 : Nat) : Bool := !(decide (cfg.winH ≤ r0) || decide (cfg.winW ≤ c0))

end Sys2Proof.Machine
end

