-- ==== Sys2Proof/Machine/Evaluator.lean ====
section
/-!
DEFINITION. The window evaluator of spec/41_evaluator.md: a pure function of a window and two offsets (R100).
-/

namespace Sys2Proof.Machine

/-- One of the 25 positions: a lit cell adds its coefficient (R85, R100). -/
def accStep (cfg : Params) (win : Window) (r0 c0 : Nat) (acc : Fx) (ij : KIdx × KIdx) : Fx :=
  if litAt cfg win r0 c0 ij.1 ij.2 then fxAdd acc (kRead cfg.kernel ij.1 ij.2) else acc

/-- ACC after some positions, from zero (R37, R100). -/
def accOver (cfg : Params) (win : Window) (r0 c0 : Nat) (positions : List (KIdx × KIdx)) : Fx :=
  positions.foldl (accStep cfg win r0 c0) 0#16

/-- ACC at the end of the evaluation (R100). -/
def accumulator (cfg : Params) (win : Window) (r0 c0 : Nat) : Fx := accOver cfg win r0 c0 kernelPositions

/-- Eval(win, r0, c0) (R100). -/
def evalWindow (cfg : Params) (win : Window) (r0 c0 : Nat) : Bool := fxGe (accumulator cfg win r0 c0) thresh

end Sys2Proof.Machine
end

