-- ==== Sys2Proof/Machine/Ops.lean ====
section
/-!
DEFINITION. The shared operations of the transactions: holding, raising a fault (spec/60_exceptions.md R131) and the way
out of it (spec/70_reset_and_hazards.md R150), accepting a command (spec/42_driver.md R117), and the streams (R16).
-/

namespace Sys2Proof.Machine

/-- What a transaction answers. -/
abbrev Result := Host.Outcome State Fault Refusal

/-- A transaction that is enabled takes its effect; one that is not holds, and nothing changes (R16, R17). -/
def transact (enabled : Bool) (effect s : State) : Result := .next (if enabled then effect else s)

/-- `raise Fault(cause, info)`: the one way a fault is taken (R131). There is no vector, saved counter or mode. -/
def raiseFault (cause : FaultCause) (info : Word) (s : State) : State :=
  { s with fault := true, faultCause := cause, faultInfo := info }

/-- RESET, the only way out of the faulted state (R132, R137, R150). The host's and the scheduler's choices, which are
no state of the block, go on; the record of a run starts anew (R125; log entries 6, 7 and 18). -/
def resetBlock (s : State) : State :=
  { State.reset with agenda := s.agenda, turns := s.turns, draws := s.draws }

/-- The command port is ready (R117). -/
def commandReady (s : State) : Bool := !s.busy && !s.fault

/-- The host offers a command: it stands at the port unless an earlier offer is still held there, since the host offers
one command at a time, in order (R117; log entry 5). A host that has ended its commands offers none (R125; log entry 18). -/
def presentOffer (o : Offer) (s : State) : State :=
  match s.cmdOffer with
  | none => if s.commandsEnded then s else { s with cmdOffer := some o }
  | some _ => s

/-- The host offers no further command in this run; what is held at the port stays (R125; log entry 18). -/
def endCommands (s : State) : State := { s with commandsEnded := true }

/-- The offer is accepted and leaves the port (R117; log entry 5). -/
def takeOffer (s : State) : State := { s with cmdOffer := none }

/-- The command step: accept the command and do `effect`, or hold it (R117). -/
def commandStep (effect : State → State) (s : State) : Result :=
  transact (commandReady s) (effect (takeOffer s)) s

/-- push(S_IN, smp) (R16, R115). -/
def pushSample (smp : Bool) (s : State) : State := { s with sIn := s.sIn ++ [smp] }

/-- push(F_OUT, f) (R16, R112). -/
def pushFlag (f : Bool) (s : State) : State := { s with fOut := s.fOut ++ [f] }

/-- pop(F_OUT), its flag returned to the host (R16, R116; log entry 6). -/
def popFlag (s : State) : State :=
  match s.fOut with
  | [] => s
  | f :: rest => { s with fOut := rest, popped := s.popped ++ [f] }

end Sys2Proof.Machine
end

