-- ==== Sys2Proof/Machine/Commands.lean ====
section
/-!
DEFINITION. The commands: FRAME_START (spec/42_driver.md R110), EVAL (spec/41_evaluator.md R101) and the reserved words
(spec/30_encoding.md R71, spec/42_driver.md R117).
-/

namespace Sys2Proof.Machine

/-- FRAME_START's effect once accepted (R110). -/
def frameStart (h w : BitVec 14) (s : State) : State :=
  if h = 0#14 ∨ w = 0#14 then raiseFault .frameZero (frameStartWord h w) s
  else { s with frameW := w, frameH := h, pixCount := 0#28, done := false, busy := true }

/-- EVAL's effect once accepted (R101). -/
def evalCommand (cfg : Params) (row col : BitVec 14) (win : Window) (s : State) : State :=
  if offsetOk cfg row.toNat col.toNat then
    { s with evalFlag := evalWindow cfg win row.toNat col.toNat, evalValid := true }
  else raiseFault .evalOffset (evalWord row col) s

/-- FRAME_START (R110, R117). -/
def execFrameStart (h w : BitVec 14) (s : State) : Result := commandStep (frameStart h w) s

/-- EVAL (R101, R117). -/
def execEval (row col : BitVec 14) (win : Window) (s : State) : Result :=
  commandStep (evalCommand Config.params row col win) s

/-- A reserved command with OP 0 (R71, R117). -/
def execReservedOp0 (x : BitVec 28) (s : State) : Result :=
  commandStep (raiseFault .cmdReserved (reservedOp0Word x)) s

/-- A reserved command with OP 3 (R71, R117). -/
def execReservedOp3 (x : BitVec 28) (s : State) : Result :=
  commandStep (raiseFault .cmdReserved (reservedOp3Word x)) s

/-- A reserved command with OP 4 to 7 (R71, R117). -/
def execReservedOp4To7 (x : BitVec 30) (s : State) : Result :=
  commandStep (raiseFault .cmdReserved (reservedOp4To7Word x)) s

/-- A reserved command with OP 8 to 15 (R71, R117). -/
def execReservedOp8ToF (x : BitVec 31) (s : State) : Result :=
  commandStep (raiseFault .cmdReserved (reservedOp8ToFWord x)) s

end Sys2Proof.Machine
end

