-- ==== Sys2Proof/Machine/Driver.lean ====
section
/-!
DEFINITION. The per-pixel step of the streaming driver and the window source's step (spec/42_driver.md R111-R114).
-/

namespace Sys2Proof.Machine

/-- The number of pixels of the frame, FRAME_W x FRAME_H, exact (R13, R114). -/
def frameSize (s : State) : Nat := s.frameW.toNat * s.frameH.toNat

/-- The request for the next pixel with sample `smp`: p = PIX_COUNT, its row and column in raster order (R111, R123). -/
def nextRequest (smp : Bool) (s : State) : WsRequest :=
  { p := s.pixCount
    row := BitVec.ofNat 14 (s.pixCount.toNat / s.frameW.toNat)
    col := BitVec.ofNat 14 (s.pixCount.toNat % s.frameW.toNat)
    s := smp }

/-- ISSUE is enabled (R111). -/
def issueEnabled (s : State) : Bool :=
  s.busy && !s.fault && s.wsReq.isNone && s.wsRsp.isNone && !s.sIn.isEmpty

/-- ISSUE's effect: consume one sample and request its window (R111). -/
def issuePixel (s : State) : State :=
  match s.sIn with
  | [] => s
  | smp :: rest => { s with sIn := rest, wsReq := some (nextRequest smp s) }

/-- COMPLETE is enabled (R112). -/
def completeEnabled (cfg : Params) (s : State) : Bool :=
  s.busy && !s.fault && s.wsRsp.isSome && decide (s.fOut.length < cfg.outDepth)

/-- CompleteFrame (R114). -/
def completeFrame (s : State) : State := { s with busy := false, done := true }

/-- PIX_COUNT advances; the frame completes when the count, read before this write, is the last one (R112, R114). -/
def countPixel (s : State) : State :=
  let t := { s with pixCount := s.pixCount + 1#28 }
  if s.pixCount.toNat + 1 = frameSize s then completeFrame t else t

/-- COMPLETE's effect: evaluate the answered window and emit its flag; the answer is cleared before the offset check
(R112). -/
def completePixel (cfg : Params) (s : State) : State :=
  match s.wsRsp with
  | none => s
  | some rsp =>
    let t := { s with wsRsp := none }
    if offsetOk cfg rsp.startRow.toNat rsp.startCol.toNat then
      countPixel (pushFlag (evalWindow cfg rsp.win rsp.startRow.toNat rsp.startCol.toNat) t)
    else raiseFault .srcOffset (rsp.startRow ++ rsp.startCol) t

/-- WS_ANSWER is enabled (R113). -/
def answerEnabled (s : State) : Bool := s.wsReq.isSome

/-- WS_ANSWER's effect: the pending request joins the source's history and the drawn answer stands in WS_RSP (R113;
log entry 4). -/
def answerWith (cfg : Params) (src : Nat → List WsRequest → WsRequest → WsAnswer) (s : State) : State :=
  match s.wsReq with
  | none => s
  | some q =>
    { s with
      wsReq := none
      wsRsp := some (decodeAnswer cfg (src s.draws s.wsHistory q))
      wsHistory := s.wsHistory ++ [q]
      draws := s.draws + 1 }

/-- PIXEL, phase ISSUE (R111). -/
def execPixelIssue (s : State) : Result := transact (issueEnabled s) (issuePixel s) s

/-- PIXEL, phase COMPLETE (R112). -/
def execPixelComplete (s : State) : Result :=
  transact (completeEnabled Config.params s) (completePixel Config.params s) s

/-- The window source's step (R113). -/
def execWsAnswer (s : State) : Result :=
  transact (answerEnabled s) (answerWith Config.params Config.winSrc s) s

end Sys2Proof.Machine
end

