-- ==== Sys2Proof/Machine/HostActions.lean ====
section
/-!
DEFINITION. The host's actions on the streams and the status bundle, and reset (spec/42_driver.md R115, R116, R118;
spec/70_reset_and_hazards.md R150).
-/

namespace Sys2Proof.Machine

/-- PUSH is enabled (R115). -/
def pushEnabled (cfg : Params) (s : State) : Bool := decide (s.sIn.length < cfg.inDepth)

/-- POP is enabled (R116). -/
def popEnabled (s : State) : Bool := !s.fOut.isEmpty

/-- READ's effect: the word is returned to the host and nothing of the block is written (R42, R118; log entry 6). -/
def readStatus (n : Fin 4) (s : State) : State :=
  { s with statusReads := s.statusReads ++ [statusBundle s n] }

/-- PUSH (R115). -/
def execPush (smp : Bool) (s : State) : Result := transact (pushEnabled Config.params s) (pushSample smp s) s

/-- POP (R116). -/
def execPop (s : State) : Result := transact (popEnabled s) (popFlag s) s

/-- READ, always enabled (R118). -/
def execRead (n : Fin 4) (s : State) : Result := transact true (readStatus n s) s

/-- RESET, always enabled (R150). -/
def execReset (s : State) : Result := transact true (resetBlock s) s

end Sys2Proof.Machine
end

