-- ==== Sys2Proof/Machine/Dispatch.lean ====
section
/-!
DEFINITION. One arm per transaction of spec/opcode_table.json.
-/

namespace Sys2Proof.Machine

def exec (i : Instr) (s : State) : Host.Outcome State Fault Refusal :=
  match i with
  | .frameStart h w => Sys2Proof.Machine.execFrameStart h w s
  | .eval row col win => Sys2Proof.Machine.execEval row col win s
  | .reservedOp0 x => Sys2Proof.Machine.execReservedOp0 x s
  | .reservedOp3 x => Sys2Proof.Machine.execReservedOp3 x s
  | .reservedOp4To7 x => Sys2Proof.Machine.execReservedOp4To7 x s
  | .reservedOp8ToF x => Sys2Proof.Machine.execReservedOp8ToF x s
  | .pixelIssue => Sys2Proof.Machine.execPixelIssue s
  | .pixelComplete => Sys2Proof.Machine.execPixelComplete s
  | .wsAnswer => Sys2Proof.Machine.execWsAnswer s
  | .push smp => Sys2Proof.Machine.execPush smp s
  | .pop => Sys2Proof.Machine.execPop s
  | .read n => Sys2Proof.Machine.execRead n s
  | .reset => Sys2Proof.Machine.execReset s

end Sys2Proof.Machine
end

