-- ==== Sys2Proof/Machine/Fetch.lean ====
section
/-!
DEFINITION. Which transaction goes next. BDA-CORE fetches no instructions (spec/10_state.md R21): any enabled step of any
agent may be scheduled (R22; spec/60_exceptions.md R135). A command is read from the command port (spec/42_driver.md R117).
-/

namespace Sys2Proof.Machine

/-- The next turn: the agenda's head or, when the agenda is empty, a free draw (log entry 3). -/
def nextTurn (s : State) : Turn × State :=
  match s.agenda with
  | t :: rest => (t, { s with agenda := rest })
  | [] => (Config.schedule s.turns, { s with turns := s.turns + 1 })

/-- The transaction at the command port, if an offer stands there (R117). -/
def portInstr (cfg : Params) (s : State) : Option Instr :=
  s.cmdOffer.map fun o => decode cfg (.command o)

/-- The state in which a turn's transaction runs: a fresh offer is put on the command port, and the end of the host's
commands is noted. -/
def turnState (s : State) : Turn → State
  | .act (.command o) => presentOffer o s
  | .act _ => s
  | .commandStep => s
  | .endCommands => endCommands s

/-- The transaction of a turn: the one at the command port for a command, the agent's own otherwise. None for a command
step with nothing offered, and for the end of the host's commands. -/
def turnInstr (cfg : Params) (s : State) : Turn → Option Instr
  | .act (.command o) => portInstr cfg (presentOffer o s)
  | .act a => some (decode cfg a)
  | .commandStep => portInstr cfg s
  | .endCommands => none

end Sys2Proof.Machine
end

