-- ==== Sys2Proof/Machine/Step.lean ====
section
/-!
DEFINITION. One step of the machine: one turn of one agent, run as one atomic transaction (spec/00_scope.md R14).
-/

namespace Sys2Proof.Machine

/-- One step. A turn with no transaction only leaves its turn's state. -/
def step (s : State) : Host.Outcome State Fault Refusal :=
  match turnInstr Config.params (nextTurn s).2 (nextTurn s).1 with
  | some i => exec i (turnState (nextTurn s).2 (nextTurn s).1)
  | none => .next (turnState (nextTurn s).2 (nextTurn s).1)

/-- `s` with a command word at the command port (zeros on the window port) and the command step as the next turn, so
that the very next step runs it (log entry 13). -/
def State.withFetchWord (s : State) (_nbits w : Nat) : State :=
  { s with cmdOffer := some ⟨BitVec.ofNat 32 w, 0⟩, agenda := .commandStep :: s.agenda }

end Sys2Proof.Machine
end

