-- ==== Sys2Proof/Machine/Assembler.lean ====
section
/-!
DEFINITION. The syntax of spec/30_encoding.md section 5: command lines (R77), host-action lines (R78), window literals
(R79) and pseudo-instructions (R80), as functions on lists of characters. The machine does not use this file: it says
which actions a line of a host program stands for (log entry 17).
-/

namespace Sys2Proof.Machine

/-- One item of an assembled host program: a host action, or the loop `wait_idle`, which no fixed list of actions
stands for (R80). -/
inductive HostItem where
  | act (a : Action)
  | waitIdle
  deriving DecidableEq, Repr

/-! ### Characters and numbers -/

/-- A space or a tab. -/
def isBlank (c : Char) : Bool := c.toNat == 32 || c.toNat == 9

/-- The value of a hex digit, 16 where the character is none. -/
def digitValue (c : Char) : Nat :=
  let n := c.toNat
  if 48 ≤ n ∧ n ≤ 57 then n - 48
  else if 65 ≤ n ∧ n ≤ 70 then n - 55
  else if 97 ≤ n ∧ n ≤ 102 then n - 87
  else 16

/-- A digit of the base. -/
def isDigitOf (base : Nat) (c : Char) : Bool := decide (digitValue c < base)

/-- A character of a mnemonic: a letter, a dot or an underscore. -/
def isNameChar (c : Char) : Bool :=
  let n := c.toNat
  decide (97 ≤ n ∧ n ≤ 122) || n == 46 || n == 95

/-- The value of a run of digits, the first the most significant. -/
def digitsValue (base : Nat) (ds : List Char) : Nat := ds.foldl (fun v c => base * v + digitValue c) 0

/-- The text after leading blanks. -/
def skipBlanks (t : List Char) : List Char := t.dropWhile isBlank

/-- A nonempty run of digits and the text after it. -/
def parseDigits (base : Nat) (t : List Char) : Option (Nat × List Char) :=
  if (t.takeWhile (isDigitOf base)).isEmpty then none
  else some (digitsValue base (t.takeWhile (isDigitOf base)), t.dropWhile (isDigitOf base))

/-- A number, decimal or `0x` hex, after leading blanks (R77). -/
def parseNumber (t : List Char) : Option (Nat × List Char) :=
  match skipBlanks t with
  | '0' :: 'x' :: rest => parseDigits 16 rest
  | u => parseDigits 10 u

/-- The text after a comma. -/
def parseComma (t : List Char) : Option (List Char) :=
  match skipBlanks t with
  | ',' :: rest => some rest
  | _ => none

/-- Nothing but blanks is left. -/
def atEnd (t : List Char) : Bool := (skipBlanks t).isEmpty

/-- A line without its comment, which `;` starts (R77). -/
def dropComment (t : List Char) : List Char := t.takeWhile fun c => c != ';'

/-- The pieces of a text between separators. -/
def splitAt (sep : Char) : List Char → List (List Char)
  | [] => [[]]
  | c :: rest =>
    if c = sep then [] :: splitAt sep rest
    else
      match splitAt sep rest with
      | [] => [[c]]
      | piece :: pieces => (c :: piece) :: pieces

/-- The whole of a piece as one number. -/
def parseWholeNumber (t : List Char) : Option Nat :=
  match parseNumber t with
  | some (n, rest) => if atEnd rest then some n else none
  | none => none

/-- A piece as one decimal cell value. -/
def parseCell (t : List Char) : Option Nat :=
  match parseDigits 10 (skipBlanks t) with
  | some (n, rest) => if atEnd rest then some n else none
  | none => none

/-- All the results, when there is no failure among them. -/
def allSome {α β : Type} (f : α → Option β) : List α → Option (List β)
  | [] => some []
  | x :: xs =>
    match f x, allSome f xs with
    | some y, some ys => some (y :: ys)
    | _, _ => none

/-- A line's text without blanks at its ends. -/
def trim (t : List Char) : List Char := (skipBlanks (skipBlanks t).reverse).reverse

/-! ### Window literals (R79) -/

/-- A row of binary digits, for CELL_BITS = 1. -/
def parseBinaryRow (t : List Char) : Option (List Cell) :=
  allSome (fun c => if digitValue c < 2 then some (digitValue c) else none) t

/-- A row `[v0,v1,...]` of decimal cell values, for CELL_BITS > 1. -/
def parseListRow (t : List Char) : Option (List Cell) :=
  match trim t with
  | '[' :: rest =>
    match rest.reverse with
    | ']' :: body => allSome parseCell (splitAt ',' body.reverse)
    | _ => none
  | _ => none

/-- A window written row by row, `/` between rows. -/
def parseRows (cfg : Params) (t : List Char) : Option Window :=
  match allSome (if cfg.cellBits = 1 then parseBinaryRow else parseListRow) (splitAt '/' t) with
  | some rows => some { rows := rows }
  | none => none

/-- A raw pattern `0x...w`. -/
def parseRawWindow (t : List Char) : Option Nat :=
  match t with
  | '0' :: 'x' :: rest =>
    match parseDigits 16 rest with
    | some (n, ['w']) => some n
    | _ => none
  | _ => none

/-- A window literal as its WINDOW pattern; one of the wrong shape is refused (R77, R79). -/
def parseWindow (cfg : Params) (t : List Char) : Option Nat :=
  match parseRawWindow (trim t) with
  | some n => if n < 2 ^ (cfg.winH * cfg.winW * cfg.cellBits) then some n else none
  | none =>
    match parseRows cfg (trim t) with
    | some win => if win.shaped cfg then some (win.toBits cfg) else none
    | none => none

/-! ### Command and host-action lines -/

/-- `frame W, H` (R77): refused unless both are in 1..16383. -/
def assembleFrame (w h : Nat) : Option Action :=
  if 1 ≤ w ∧ w ≤ 16383 ∧ 1 ≤ h ∧ h ≤ 16383 then
    some (.command ⟨BitVec.ofNat 32 (0x10000000 ||| (h <<< 14) ||| w), 0⟩)
  else none

/-- `eval R, C, WIN` (R77): refused unless both offsets are in 0..16383. -/
def assembleEval (r c winBits : Nat) : Option Action :=
  if r ≤ 16383 ∧ c ≤ 16383 then
    some (.command ⟨BitVec.ofNat 32 (0x20000000 ||| (r <<< 14) ||| c), winBits⟩)
  else none

/-- `.word` emits a raw command word, unchecked (R77). It names no window operand, so the window port carries zeros. -/
def assembleWord (w : Nat) : Option Action :=
  if w < 2 ^ 32 then some (.command ⟨BitVec.ofNat 32 w, 0⟩) else none

/-- A sample, 0 or 1 (R78). -/
def sampleOf (n : Nat) : Option Bool := if n = 0 then some false else if n = 1 then some true else none

/-- The nonempty words of a text between blanks. -/
def blankWords (t : List Char) : List (List Char) :=
  (splitAt ' ' (t.map fun c => if isBlank c then ' ' else c)).filter fun piece => !piece.isEmpty

/-- The samples of a text. DESIGN CHOICE: one or more blanks, spaces or tabs, separate them, since R80 names no separator
(log entry 17). -/
def parseSamples (t : List Char) : Option (List Bool) :=
  allSome (fun piece => (parseWholeNumber piece).bind sampleOf) (blankWords t)

/-- `samples s0 ... sk` (R80). -/
def expandSamples (ss : List Bool) : List HostItem := ss.map fun smp => .act (.push smp)

/-- `drain n` (R80). -/
def expandDrain (n : Nat) : List HostItem := List.replicate n (.act .pop)

/-- `run W, H, s0 ... s(WH-1)` (R80): one sample per pixel. -/
def expandRun (w h : Nat) (ss : List Bool) : Option (List HostItem) :=
  if ss.length = w * h then (assembleFrame w h).map fun a => .act a :: expandSamples ss else none

/-- Two numbers with a comma between them. -/
def parsePair (t : List Char) : Option (Nat × Nat × List Char) :=
  (parseNumber t).bind fun x => (parseComma x.2).bind fun u => (parseNumber u).bind fun y => some (x.1, y.1, y.2)

/-- The line's items, given its first word and the text after that (R77, R78, R80). -/
def assembleNamed (cfg : Params) (name : List Char) (args : List Char) : Option (List HostItem) :=
  if name = ['f', 'r', 'a', 'm', 'e'] then
    (parsePair args).bind fun x => if atEnd x.2.2 then (assembleFrame x.1 x.2.1).map fun a => [.act a] else none
  else if name = ['e', 'v', 'a', 'l'] then
    (parsePair args).bind fun x => (parseComma x.2.2).bind fun u => (parseWindow cfg u).bind fun win =>
      (assembleEval x.1 x.2.1 win).map fun a => [.act a]
  else if name = ['.', 'w', 'o', 'r', 'd'] then
    (parseWholeNumber args).bind fun w => (assembleWord w).map fun a => [.act a]
  else if name = ['p', 'u', 's', 'h'] then
    (parseWholeNumber args).bind fun n => (sampleOf n).map fun smp => [.act (.push smp)]
  else if name = ['p', 'o', 'p'] then if atEnd args then some [.act .pop] else none
  else if name = ['r', 'e', 'a', 'd'] then
    (parseWholeNumber args).bind fun n => if h : n < 4 then some [.act (.read ⟨n, h⟩)] else none
  else if name = ['r', 'e', 's', 'e', 't'] then if atEnd args then some [.act .reset] else none
  else if name = ['s', 'a', 'm', 'p', 'l', 'e', 's'] then (parseSamples args).map expandSamples
  else if name = ['r', 'u', 'n'] then
    (parsePair args).bind fun x => (parseComma x.2.2).bind fun u => (parseSamples u).bind fun ss => expandRun x.1 x.2.1 ss
  else if name = ['d', 'r', 'a', 'i', 'n'] then (parseWholeNumber args).map expandDrain
  else if name = ['w', 'a', 'i', 't', '_', 'i', 'd', 'l', 'e'] then if atEnd args then some [.waitIdle] else none
  else none

/-- One line: nothing, a command, a host action or a pseudo-instruction (R77, R78, R80). -/
def assembleLine (cfg : Params) (line : List Char) : Option (List HostItem) :=
  let t := skipBlanks (dropComment line)
  if t.isEmpty then some [] else assembleNamed cfg (t.takeWhile isNameChar) (t.dropWhile isNameChar)

/-- A host program, one command per line (R77). -/
def assembleProgram (cfg : Params) (text : List Char) : Option (List HostItem) :=
  (allSome (assembleLine cfg) (splitAt '\n' text)).map List.flatten

/-- `wait_idle` after one `read 0` that returned `status`: it goes on while bit 0 (BUSY) is 1 (R80). -/
def afterPoll (status : Word) (rest : List HostItem) : List HostItem :=
  if status.getLsbD 0 then .waitIdle :: rest else rest

/-- The turns of a program in which each `wait_idle` polls `polls` times (R80; log entry 17). -/
def hostTurns (polls : Nat) (items : List HostItem) : List Turn :=
  items.flatMap fun item =>
    match item with
    | .act a => [.act a]
    | .waitIdle => List.replicate polls (.act (.read 0))

/-- The turns of a whole program, after whose last line the host offers no further command (R125; log entry 18). -/
def programTurns (polls : Nat) (items : List HostItem) : List Turn := hostTurns polls items ++ [.endCommands]

end Sys2Proof.Machine
end

