-- ==== Sys2Proof/Safety.lean ====
section
/-!
DEFINITION. What claims about BDA-CORE are stated in: who takes a transaction and when it is enabled, the exact sum an
evaluation stands for, the invariant of every reachable state, and the end of a run (spec/42_driver.md R125).
-/

namespace Sys2Proof.Machine

/-- The agent that takes a transaction (R22). -/
def instrAgent : Instr → Agent
  | .frameStart _ _ => .host
  | .eval _ _ _ => .host
  | .reservedOp0 _ => .host
  | .reservedOp3 _ => .host
  | .reservedOp4To7 _ => .host
  | .reservedOp8ToF _ => .host
  | .pixelIssue => .driver
  | .pixelComplete => .driver
  | .wsAnswer => .ws
  | .push _ => .host
  | .pop => .host
  | .read _ => .host
  | .reset => .host

/-- The transaction's enabling condition (R16, R111-R113, R115-R118, R150). -/
def instrEnabled (cfg : Params) (s : State) : Instr → Bool
  | .frameStart _ _ => commandReady s
  | .eval _ _ _ => commandReady s
  | .reservedOp0 _ => commandReady s
  | .reservedOp3 _ => commandReady s
  | .reservedOp4To7 _ => commandReady s
  | .reservedOp8ToF _ => commandReady s
  | .pixelIssue => issueEnabled s
  | .pixelComplete => completeEnabled cfg s
  | .wsAnswer => answerEnabled s
  | .push _ => pushEnabled cfg s
  | .pop => popEnabled s
  | .read _ => true
  | .reset => true

/-- The exact integer sum of the coefficients whose cells are lit, over some kernel positions (R90, R100). -/
def exactSum (cfg : Params) (win : Window) (r0 c0 : Nat) (positions : List (KIdx × KIdx)) : Int :=
  (positions.map fun ij => if litAt cfg win r0 c0 ij.1 ij.2 then kernelInt cfg.kernel ij.1 ij.2 else 0).sum

/-- Exactly these kernel positions of the patch are lit (R104-R108). -/
def LitExactly (cfg : Params) (win : Window) (r0 c0 : Nat) (positions : List (KIdx × KIdx)) : Prop :=
  ∀ i j, litAt cfg win r0 c0 i j = true ↔ (i, j) ∈ positions

/-- The centre of the patch and its four orthogonal neighbours (R87, R106). -/
def plusPositions : List (KIdx × KIdx) := [(2, 2), (1, 2), (3, 2), (2, 1), (2, 3)]

/-- The fault registers agree with R130 and R27: no cause and no info without a fault; with one, the cause's own
condition holds of the recorded value, and BUSY is as the raising transaction found it. -/
def FaultRecordOk (cfg : Params) (s : State) : Prop :=
  match s.faultCause with
  | .noFault => s.fault = false ∧ s.faultInfo = 0#32
  | .cmdReserved => s.fault = true ∧ s.busy = false ∧ fieldOp s.faultInfo ≠ 1#4 ∧ fieldOp s.faultInfo ≠ 2#4
  | .frameZero =>
    s.fault = true ∧ s.busy = false ∧ fieldOp s.faultInfo = 1#4 ∧ (fieldA s.faultInfo = 0#14 ∨ fieldB s.faultInfo = 0#14)
  | .evalOffset =>
    s.fault = true ∧ s.busy = false ∧ fieldOp s.faultInfo = 2#4 ∧
      (cfg.winH ≤ (fieldA s.faultInfo).toNat ∨ cfg.winW ≤ (fieldB s.faultInfo).toNat)
  | .srcOffset =>
    s.fault = true ∧ s.busy = true ∧
      (cfg.winH ≤ (s.faultInfo.extractLsb' 16 16).toNat ∨ cfg.winW ≤ (s.faultInfo.extractLsb' 0 16).toNat)

/-- A window answer waiting to be evaluated: 1 or 0. -/
def pendingAnswers (s : State) : Nat := if s.wsRsp.isSome then 1 else 0

/-- A pixel whose answer raised cause 4 and so gave no flag (R112): 1 or 0. -/
def lostPixels (s : State) : Nat := if s.faultCause = .srcOffset then 1 else 0

/-- The invariant of BDA-CORE's states. -/
structure State.Inv (cfg : Params) (s : State) : Prop where
  /-- R29, R130. -/
  faultRecord : FaultRecordOk cfg s
  /-- R31. -/
  busyDims : s.busy = true → 1 ≤ s.frameW.toNat ∧ 1 ≤ s.frameH.toNat
  /-- R32, R111. -/
  busyCount : s.busy = true → s.pixCount.toNat < frameSize s
  /-- R32, R114, and R44 before the first frame. -/
  idleCount : s.busy = false → s.pixCount.toNat = frameSize s
  /-- R28, R114. -/
  doneIdle : s.done = true → s.busy = false ∧ 1 ≤ frameSize s
  /-- R30. -/
  flagNeedsValid : s.evalValid = false → s.evalFlag = false
  /-- R36. -/
  oneSided : s.wsReq = none ∨ s.wsRsp = none
  /-- R111, R132, R119: a pending request is the one for the pixel PIX_COUNT stands at. -/
  requestOk : ∀ q, s.wsReq = some q → s.busy = true ∧ s.fault = false ∧ q = nextRequest q.s s
  /-- R46, R113, R132. -/
  responseOk : ∀ rsp, s.wsRsp = some rsp → s.busy = true ∧ s.fault = false ∧ rsp.win.shaped cfg = true
  /-- R33. -/
  sInFits : s.sIn.length ≤ cfg.inDepth
  /-- R34. -/
  fOutFits : s.fOut.length ≤ cfg.outDepth
  /-- R32, R60: the flags of the current or last frame are in F_OUT or have been popped. -/
  flagsKept : s.pixCount.toNat ≤ s.popped.length + s.fOut.length
  /-- R59, R119, R120: since reset, every answered request has its flag, is still to be evaluated, or was lost to a
  fault. -/
  oneToOne : s.popped.length + s.fOut.length + pendingAnswers s + lostPixels s = s.wsHistory.length

/-- The turns of `n` pixels taken one after another: ISSUE, WS_ANSWER, COMPLETE (42_driver section 2). -/
def pixelRounds : Nat → List Turn
  | 0 => []
  | n + 1 => .act .issue :: .act .answer :: .act .complete :: pixelRounds n

/-- The request ISSUE makes for the k-th pixel from `s` on, with the k-th waiting sample (R111, R119). -/
def requestAhead (s : State) (k : Nat) : WsRequest :=
  nextRequest (s.sIn.getD k false) { s with pixCount := s.pixCount + BitVec.ofNat 28 k }

/-- The requests of the next `n` pixels, in order. -/
def requestsAhead (s : State) (n : Nat) : List WsRequest := (List.range n).map (requestAhead s)

/-- The answer the window source draws for the k-th pixel from `s` on, when the pixels are taken one after another (R113;
log entry 4). -/
def answerAhead (s : State) (k : Nat) : WsResponse :=
  decodeAnswer Config.params (Config.winSrc (s.draws + k) (s.wsHistory ++ requestsAhead s k) (requestAhead s k))

/-- The k-th answer's offsets lie inside the window (R112). -/
def offsetAheadOk (s : State) (k : Nat) : Bool :=
  offsetOk Config.params (answerAhead s k).startRow.toNat (answerAhead s k).startCol.toNat

/-- The flag of the k-th answer's window (R112, R119). -/
def flagAhead (s : State) (k : Nat) : Bool :=
  evalWindow Config.params (answerAhead s k).win (answerAhead s k).startRow.toNat (answerAhead s k).startCol.toNat

/-- The flags of the next `n` pixels, in order (R59, R119). -/
def flagsAhead (s : State) (n : Nat) : List Bool := (List.range n).map (flagAhead s)

/-- The state after a step: every step answers a next state (R132), so the other answers do not occur. -/
def stateNext (s : State) : State :=
  match step s with
  | .next t => t
  | .fault _ => s
  | .refused _ => s

/-- The state after `n` steps. -/
def stateAfter (s : State) : Nat → State
  | 0 => s
  | n + 1 => stateNext (stateAfter s n)

/-- Weak fairness for one action, on the run from `s`: if it stays enabled from some point on, its turn comes (R160). -/
def FairFor (a : Action) (enabled : State → Bool) (s : State) : Prop :=
  (∀ m, enabled (stateAfter s m) = true) → ∃ m, (nextTurn (stateAfter s m)).1 = .act a

/-- The progress assumption of R160: at every point of the run from `s`, weak fairness for each DRIVER and WS step. The
step does not enforce it (log entry 14); a claim that a frame completes takes it as a premise. -/
def WeaklyFair (cfg : Params) (s : State) : Prop :=
  ∀ n, FairFor .issue issueEnabled (stateAfter s n) ∧ FairFor .complete (completeEnabled cfg) (stateAfter s n) ∧
    FairFor .answer answerEnabled (stateAfter s n)

/-- A run from reset is finished (R125): the host offers no further command, neither a held one nor a new one. A faulted
state and a state with BUSY = 1 never are. -/
def State.finished (s : State) : Bool :=
  !s.fault && !s.busy && s.wsReq.isNone && s.wsRsp.isNone && s.cmdOffer.isNone && s.commandsEnded

/-- The result of a run (R125): its flags, STATUS, FRAME_DIM and PIX_COUNT. -/
structure RunResult where
  flags : List Bool
  status : Word
  frameDim : Word
  pixCount : Word
  deriving DecidableEq, Repr

/-- The result read off a state (R125). -/
def State.result (s : State) : RunResult :=
  { flags := s.popped ++ s.fOut
    status := statusBundle s 0
    frameDim := statusBundle s 1
    pixCount := statusBundle s 2 }

end Sys2Proof.Machine
end

