-- ==== Sys2Proof/Certificates/Slice0/Obligations.lean ====
section
/-!
DEFINITION. The statements for the provers. Each docstring names the rules of spec/ it formalises; a clause that rests on
a choice of the model names its log entry (notes/assumptions/<n>.md).
-/

open Sys2Proof Sys2Proof.Machine

/-! ### The commands -/

/-- R110: FRAME_START accepted writes FRAME_W, FRAME_H, PIX_COUNT, DONE and BUSY and nothing else but the accepted offer;
a zero dimension faults with cause 2 and the command word; while BUSY or FAULT it holds. That the accepted offer leaves the
command port (R117) is the model's reading (log entry 5). -/
def Obligations.FrameStartMeaning : Prop :=
  ∀ (h w : BitVec 14) (s : State),
    (s.busy = false → s.fault = false → h ≠ 0#14 → w ≠ 0#14 →
      exec (.frameStart h w) s = .next
        { s with cmdOffer := none, frameW := w, frameH := h, pixCount := 0#28, done := false, busy := true }) ∧
    (s.busy = false → s.fault = false → (h = 0#14 ∨ w = 0#14) →
      exec (.frameStart h w) s = .next
        { s with cmdOffer := none, fault := true, faultCause := .frameZero, faultInfo := frameStartWord h w }) ∧
    (s.busy = true ∨ s.fault = true → exec (.frameStart h w) s = .next s)

/-- R101: EVAL accepted writes EVAL_FLAG and EVAL_VALID and nothing else but the accepted offer; an offset outside the
window faults with cause 3 and the command word, before any evaluation; while BUSY or FAULT it holds. The last clause is the
rule's example, at the default sizes. That the accepted offer leaves the command port (R117) is the model's reading (log
entry 5), and what a window of another shape than the configuration's reads as is its choice (log entry 16). -/
def Obligations.EvalMeaning : Prop :=
  (∀ (row col : BitVec 14) (win : Window) (s : State),
    (s.busy = false → s.fault = false →
      exec (.eval row col win) s = .next
        (if row.toNat < Config.params.winH ∧ col.toNat < Config.params.winW then
          { s with
            cmdOffer := none
            evalFlag := evalWindow Config.params win row.toNat col.toNat
            evalValid := true }
        else { s with cmdOffer := none, fault := true, faultCause := .evalOffset, faultInfo := evalWord row col })) ∧
    (s.busy = true ∨ s.fault = true → exec (.eval row col win) s = .next s)) ∧
  (∀ (k11 k00 k01 k02 k10 k20 : Int) (d e : Nat) (s : State),
    let cfg := Params.withDefaults k11 k00 k01 k02 k10 k20 d e
    let win := Window.ofBits cfg 0x23880
    decodeCommand 0x20000000#32 win = .eval 0#14 0#14 win ∧ accumulator cfg win 0 0 = 11261#16 ∧
    (evalCommand cfg 0#14 0#14 win s).evalFlag = true ∧ (evalCommand cfg 0#14 0#14 win s).evalValid = true)

/-- R70, R101: at offsets the smallest window has, EVAL always completes with its flag. That the accepted offer leaves the
command port is the model's reading (log entry 5). -/
def Obligations.EvalCompletesInsideEveryWindow : Prop :=
  ∀ (row col : BitVec 14) (win : Window) (s : State),
    s.busy = false → s.fault = false → row.toNat < 5 → col.toNat < 5 →
      exec (.eval row col win) s = .next
        { s with
          cmdOffer := none
          evalFlag := evalWindow Config.params win row.toNat col.toNat
          evalValid := true }

/-- R71: the four reserved rows, and every word whose OP is neither 1 nor 2, fault with cause 1 and the command word when
accepted, and hold otherwise. That the accepted offer leaves the command port (R117) is the model's reading (log entry 5). -/
def Obligations.ReservedCommandsFault : Prop :=
  (∀ (x : BitVec 28) (s : State), s.busy = false → s.fault = false →
    exec (.reservedOp0 x) s = .next
      { s with cmdOffer := none, fault := true, faultCause := .cmdReserved, faultInfo := reservedOp0Word x }) ∧
  (∀ (x : BitVec 28) (s : State), s.busy = false → s.fault = false →
    exec (.reservedOp3 x) s = .next
      { s with cmdOffer := none, fault := true, faultCause := .cmdReserved, faultInfo := reservedOp3Word x }) ∧
  (∀ (x : BitVec 30) (s : State), s.busy = false → s.fault = false →
    exec (.reservedOp4To7 x) s = .next
      { s with cmdOffer := none, fault := true, faultCause := .cmdReserved, faultInfo := reservedOp4To7Word x }) ∧
  (∀ (x : BitVec 31) (s : State), s.busy = false → s.fault = false →
    exec (.reservedOp8ToF x) s = .next
      { s with cmdOffer := none, fault := true, faultCause := .cmdReserved, faultInfo := reservedOp8ToFWord x }) ∧
  (∀ (cmd : Word) (win : Window) (s : State), fieldOp cmd ≠ 1#4 → fieldOp cmd ≠ 2#4 →
    exec (decodeCommand cmd win) s = .next
      (if s.busy = false ∧ s.fault = false then
        { s with cmdOffer := none, fault := true, faultCause := .cmdReserved, faultInfo := cmd }
      else s))

/-! ### The per-pixel step -/

/-- R111: ISSUE consumes the head of S_IN and requests the window of pixel PIX_COUNT; in every other state it holds. In
states that no run reaches (BUSY with FRAME_W = 0, a row beyond 14 bits) the two quotients are the model's choice (log
entry 10). -/
def Obligations.PixelIssueMeaning : Prop :=
  (∀ (s : State) (smp : Bool) (rest : List Bool),
    s.busy = true → s.fault = false → s.wsReq = none → s.wsRsp = none → s.sIn = smp :: rest →
      exec .pixelIssue s = .next
        { s with
          sIn := rest
          wsReq := some
            { p := s.pixCount
              row := BitVec.ofNat 14 (s.pixCount.toNat / s.frameW.toNat)
              col := BitVec.ofNat 14 (s.pixCount.toNat % s.frameW.toNat)
              s := smp } }) ∧
  (∀ s : State, (s.busy = false ∨ s.fault = true ∨ s.wsReq ≠ none ∨ s.wsRsp ≠ none ∨ s.sIn = []) →
    exec .pixelIssue s = .next s)

/-- R112, R114: COMPLETE clears the answer, pushes the flag of its window and counts the pixel; the frame's last pixel also
clears BUSY and sets DONE. An offset outside the window faults with cause 4, pushes nothing and counts nothing. Without an
answer, without room in F_OUT, idle or faulted, it holds. The last clause is the rule's example, at the default sizes. In states that
no run reaches (PIX_COUNT beyond its frame, its wrap at 2^28) the count is the model's choice (log entry 10). -/
def Obligations.PixelCompleteMeaning : Prop :=
  (∀ (s : State) (rsp : WsResponse),
    s.busy = true → s.fault = false → s.wsRsp = some rsp → s.fOut.length < Config.params.outDepth →
    rsp.startRow.toNat < Config.params.winH → rsp.startCol.toNat < Config.params.winW →
      exec .pixelComplete s = .next
        { s with
          wsRsp := none
          fOut := s.fOut ++ [evalWindow Config.params rsp.win rsp.startRow.toNat rsp.startCol.toNat]
          pixCount := s.pixCount + 1#28
          busy := if s.pixCount.toNat + 1 = s.frameW.toNat * s.frameH.toNat then false else true
          done := if s.pixCount.toNat + 1 = s.frameW.toNat * s.frameH.toNat then true else s.done }) ∧
  (∀ (s : State) (rsp : WsResponse),
    s.busy = true → s.fault = false → s.wsRsp = some rsp → s.fOut.length < Config.params.outDepth →
    (Config.params.winH ≤ rsp.startRow.toNat ∨ Config.params.winW ≤ rsp.startCol.toNat) →
      exec .pixelComplete s = .next
        { s with
          wsRsp := none
          fault := true
          faultCause := .srcOffset
          faultInfo := rsp.startRow ++ rsp.startCol }) ∧
  (∀ s : State, (s.busy = false ∨ s.fault = true ∨ s.wsRsp = none ∨ Config.params.outDepth ≤ s.fOut.length) →
    exec .pixelComplete s = .next s) ∧
  (∀ (k11 k00 k01 k02 k10 k20 : Int) (d e : Nat) (s : State),
    let cfg := Params.withDefaults k11 k00 k01 k02 k10 k20 d e
    s.wsRsp = some ⟨Window.ofBits cfg 0x23880, 0#16, 0#16⟩ → (completePixel cfg s).fOut = s.fOut ++ [true])

/-- R113: WS_ANSWER turns the pending request into the drawn answer; without a request it holds. That the request joins
the history in this step and that the draw is numbered are the model's choices (log entry 4). -/
def Obligations.WsAnswerMeaning : Prop :=
  (∀ (s : State) (q : WsRequest), s.wsReq = some q →
    exec .wsAnswer s = .next
      { s with
        wsReq := none
        wsRsp := some (decodeAnswer Config.params (Config.winSrc s.draws s.wsHistory q))
        wsHistory := s.wsHistory ++ [q]
        draws := s.draws + 1 }) ∧
  (∀ s : State, s.wsReq = none → exec .wsAnswer s = .next s)

/-! ### The host's actions -/

/-- R115: PUSH appends the sample in every state in which S_IN is not full, and holds when it is. -/
def Obligations.PushMeaning : Prop :=
  ∀ (smp : Bool) (s : State),
    (s.sIn.length < Config.params.inDepth → exec (.push smp) s = .next { s with sIn := s.sIn ++ [smp] }) ∧
    (Config.params.inDepth ≤ s.sIn.length → exec (.push smp) s = .next s)

/-- R116: POP removes the head of F_OUT in every state in which there is one, and holds when there is none. That the flag
it returns is recorded in `popped` is the model's choice (log entry 6). -/
def Obligations.PopMeaning : Prop :=
  (∀ (s : State) (f : Bool) (rest : List Bool), s.fOut = f :: rest →
    exec .pop s = .next { s with fOut := rest, popped := s.popped ++ [f] }) ∧
  (∀ s : State, s.fOut = [] → exec .pop s = .next s)

/-- R118, R42: READ is enabled in every state and changes no state of the block. That the word it returns is recorded in
`statusReads` is the model's choice (log entry 6). -/
def Obligations.ReadMeaning : Prop :=
  ∀ (n : Fin 4) (s : State), exec (.read n) s = .next { s with statusReads := s.statusReads ++ [statusBundle s n] }

/-- R150, R44: RESET is enabled in every state and leaves every piece of state at its value of the table. -/
def Obligations.ResetMeaning : Prop :=
  ∀ s : State, ∃ t : State, exec .reset s = .next t ∧
    t.busy = false ∧ t.done = false ∧ t.fault = false ∧ t.faultCause = .noFault ∧ t.faultInfo = 0#32 ∧
    t.evalValid = false ∧ t.evalFlag = false ∧ t.frameW = 0#14 ∧ t.frameH = 0#14 ∧ t.pixCount = 0#28 ∧
    t.sIn = [] ∧ t.fOut = [] ∧ t.wsReq = none ∧ t.wsRsp = none ∧ t.cmdOffer = none ∧ t.wsHistory = []

/-- RESET leaves the launch state but for the model's own choices of what comes next (log entries 6, 7 and 18). -/
def Obligations.ResetGivesLaunchState : Prop :=
  ∀ s : State, exec .reset s = .next { State.reset with agenda := s.agenda, turns := s.turns, draws := s.draws }

/-! ### The status bundle -/

/-- R39: the layout of STATUS, its hardwired zeros, the legal causes, its reset value; reading
the bundle changes no word of it. -/
def Obligations.StatusWordLayout : Prop :=
  (∀ s : State,
    (statusBundle s 0).getLsbD 0 = s.busy ∧ (statusBundle s 0).getLsbD 1 = s.done ∧
    (statusBundle s 0).getLsbD 2 = s.fault ∧ (statusBundle s 0).getLsbD 3 = s.evalValid ∧
    (statusBundle s 0).getLsbD 4 = s.evalFlag ∧ (statusBundle s 0).extractLsb' 5 3 = 0#3 ∧
    (statusBundle s 0).extractLsb' 8 4 = faultCode s.faultCause ∧ (faultCode s.faultCause).toNat ≤ 4 ∧
    (statusBundle s 0).extractLsb' 12 20 = 0#20) ∧
  (∀ (s t : State) (n m : Fin 4), exec (.read n) s = .next t → statusBundle t m = statusBundle s m) ∧
  statusBundle State.reset 0 = 0#32

/-- R40: FRAME_DIM has FRAME_W and FRAME_H where FRAME_START has W and H, zeros above, and reset value 0; reading the bundle
changes no word of it. -/
def Obligations.FrameDimWordLayout : Prop :=
  (∀ s : State,
    (statusBundle s 1).extractLsb' 0 14 = s.frameW ∧ (statusBundle s 1).extractLsb' 14 14 = s.frameH ∧
    (statusBundle s 1).extractLsb' 28 4 = 0#4 ∧
    fieldB (statusBundle s 1) = fieldB (frameStartWord s.frameH s.frameW) ∧
    fieldA (statusBundle s 1) = fieldA (frameStartWord s.frameH s.frameW)) ∧
  (∀ (s t : State) (n m : Fin 4), exec (.read n) s = .next t → statusBundle t m = statusBundle s m) ∧
  statusBundle State.reset 1 = 0#32

/-- R41: the PIX_COUNT word and the FAULT_INFO word, and their reset values; reading the bundle changes no word of
it. -/
def Obligations.PixCountAndFaultInfoWords : Prop :=
  (∀ s : State,
    (statusBundle s 2).extractLsb' 0 28 = s.pixCount ∧ (statusBundle s 2).extractLsb' 28 4 = 0#4 ∧
    statusBundle s 3 = s.faultInfo) ∧
  (∀ (s t : State) (n m : Fin 4), exec (.read n) s = .next t → statusBundle t m = statusBundle s m) ∧
  statusBundle State.reset 2 = 0#32 ∧ statusBundle State.reset 3 = 0#32

/-! ### Decoding and encoding -/

/-- R74: the opcode alone selects the command, and its fields are CMD[27:14] and CMD[13:0]; every other word decodes to a
reserved command, whose word it is. -/
def Obligations.DecodeFollowsOpcode : Prop :=
  ∀ (cmd : Word) (win : Window),
    (fieldOp cmd = 1#4 → decodeCommand cmd win = .frameStart (cmd.extractLsb' 14 14) (cmd.extractLsb' 0 14)) ∧
    (fieldOp cmd = 2#4 → decodeCommand cmd win = .eval (cmd.extractLsb' 14 14) (cmd.extractLsb' 0 14) win) ∧
    (fieldOp cmd ≠ 1#4 → fieldOp cmd ≠ 2#4 →
      ((∃ x, decodeCommand cmd win = .reservedOp0 x ∧ reservedOp0Word x = cmd) ∨
       (∃ x, decodeCommand cmd win = .reservedOp3 x ∧ reservedOp3Word x = cmd) ∨
       (∃ x, decodeCommand cmd win = .reservedOp4To7 x ∧ reservedOp4To7Word x = cmd) ∨
       (∃ x, decodeCommand cmd win = .reservedOp8ToF x ∧ reservedOp8ToFWord x = cmd)))

/-- 95_test_vectors section 5: words written out in the spec decode to the commands they stand for. -/
def Obligations.SpecWordsDecode : Prop :=
  ∀ win : Window,
    decodeCommand 0x20008002#32 win = .eval 2#14 2#14 win ∧
    decodeCommand 0x20010004#32 win = .eval 4#14 4#14 win ∧
    decodeCommand 0x10004002#32 win = .frameStart 1#14 2#14 ∧
    decodeCommand 0x10100040#32 win = .frameStart 64#14 64#14 ∧
    decodeCommand 0x10010000#32 win = .frameStart 4#14 0#14 ∧
    decodeCommand 0x0FFFFFFF#32 win = .reservedOp0 0x0FFFFFFF#28 ∧
    decodeCommand 0x30000000#32 win = .reservedOp3 0#28 ∧
    decodeCommand 0xF0000000#32 win = .reservedOp8ToF 0x70000000#31

/-- R67-R74: decoding what the encoder writes gives the transaction back, for every well-formed one, in every
configuration. -/
def Obligations.EncodeThenDecode : Prop :=
  ∀ (cfg : Params) (i : Instr), i.wellFormed cfg = true → decode cfg (encode cfg i) = i

/-- R68-R71, R74: every one of the 2^32 words is the word of the transaction it decodes to. -/
def Obligations.DecodeThenEncodeWord : Prop :=
  ∀ (cmd : Word) (win : Window), commandWord (decodeCommand cmd win) = some cmd

/-- R67: the WINDOW format holds cell (r, c) in its own CELL_BITS bits; every pattern of the window's size is legal and
comes back from the window it decodes to; a decoded window has the configuration's shape. -/
def Obligations.WindowFormatIsExact : Prop :=
  ∀ (cfg : Params) (bits : Nat),
    (∀ r c, r < cfg.winH → c < cfg.winW → (Window.ofBits cfg bits).cell r c =
      bits / 2 ^ ((r * cfg.winW + c) * cfg.cellBits) % 2 ^ cfg.cellBits) ∧
    (Window.ofBits cfg bits).shaped cfg = true ∧
    (bits < 2 ^ (cfg.winH * cfg.winW * cfg.cellBits) → (Window.ofBits cfg bits).toBits cfg = bits)

/-- R72, R73: the fields of the packed window-source request and answer stand at the rules' bits, the answer's window in the
layout of R67 from bit 32 up; and the packing loses nothing. -/
def Obligations.WsChannelFormatsRoundTrip : Prop :=
  (∀ q : WsRequest,
    (packWsRequest q).extractLsb' 0 28 = q.p ∧ (packWsRequest q).extractLsb' 28 14 = q.row ∧
    (packWsRequest q).extractLsb' 42 14 = q.col ∧ (packWsRequest q).getLsbD 56 = q.s) ∧
  (∀ (cfg : Params) (rsp : WsResponse), rsp.win.shaped cfg = true →
    packWsResponse cfg rsp % 2 ^ 16 = rsp.startCol.toNat ∧
    packWsResponse cfg rsp / 2 ^ 16 % 2 ^ 16 = rsp.startRow.toNat ∧
    packWsResponse cfg rsp / 2 ^ 32 = rsp.win.toBits cfg ∧
    packWsResponse cfg rsp < 2 ^ (32 + cfg.winH * cfg.winW * cfg.cellBits) ∧
    (∀ r c, r < cfg.winH → c < cfg.winW →
      packWsResponse cfg rsp / 2 ^ (32 + (r * cfg.winW + c) * cfg.cellBits) % 2 ^ cfg.cellBits = rsp.win.cell r c)) ∧
  (∀ q : WsRequest, unpackWsRequest (packWsRequest q) = q) ∧
  (∀ w : BitVec 57, packWsRequest (unpackWsRequest w) = w) ∧
  (∀ (cfg : Params) (rsp : WsResponse), rsp.win.shaped cfg = true →
    decodeAnswer cfg (unpackWsAnswer (packWsResponse cfg rsp)) = rsp)

/-- R77: `frame` and `eval` lines assemble to the words of R69 and R70 exactly in their ranges and are refused outside. -/
def Obligations.AssemblerMatchesEncoder : Prop :=
  (∀ w h : Nat, 1 ≤ w → w ≤ 16383 → 1 ≤ h → h ≤ 16383 →
    assembleFrame w h = some (.command ⟨frameStartWord (BitVec.ofNat 14 h) (BitVec.ofNat 14 w), 0⟩)) ∧
  (∀ w h : Nat, (w = 0 ∨ 16383 < w ∨ h = 0 ∨ 16383 < h) → assembleFrame w h = none) ∧
  (∀ r c bits : Nat, r ≤ 16383 → c ≤ 16383 →
    assembleEval r c bits = some (.command ⟨evalWord (BitVec.ofNat 14 r) (BitVec.ofNat 14 c), bits⟩)) ∧
  (∀ r c bits : Nat, (16383 < r ∨ 16383 < c) → assembleEval r c bits = none)

/-! ### Toroidal addressing -/

/-- R49: every wrapped coordinate lies inside the window, whatever the offset. R50, R51: under the precondition the modulo is
one conditional subtraction, and at offset 0 it is the identity. -/
def Obligations.WrapIsOneSubtraction : Prop :=
  ∀ cfg : Params, cfg.admissible = true → ∀ k : KIdx,
    (∀ start : Nat, wrapCoord cfg.winH start k < cfg.winH ∧ wrapCoord cfg.winW start k < cfg.winW) ∧
    (∀ r0, r0 < cfg.winH → r0 + k.val < 2 * cfg.winH ∧
      wrapCoord cfg.winH r0 k = if cfg.winH ≤ r0 + k.val then r0 + k.val - cfg.winH else r0 + k.val) ∧
    (∀ c0, c0 < cfg.winW → c0 + k.val < 2 * cfg.winW ∧
      wrapCoord cfg.winW c0 k = if cfg.winW ≤ c0 + k.val then c0 + k.val - cfg.winW else c0 + k.val) ∧
    wrapCoord cfg.winH 0 k = k.val ∧ wrapCoord cfg.winW 0 k = k.val

/-- R52: the 25 kernel positions read 25 distinct cells, and in a 5 x 5 window every cell is read exactly once. -/
def Obligations.EachCellReadAtMostOnce : Prop :=
  ∀ cfg : Params, cfg.admissible = true → ∀ r0 c0 : Nat,
    (∀ i i' : KIdx, wrapCoord cfg.winH r0 i = wrapCoord cfg.winH r0 i' → i = i') ∧
    (∀ j j' : KIdx, wrapCoord cfg.winW c0 j = wrapCoord cfg.winW c0 j' → j = j') ∧
    (cfg.winH = 5 → cfg.winW = 5 → ∀ r c, r < 5 → c < 5 →
      ∃! ij : KIdx × KIdx, wrapCoord cfg.winH r0 ij.1 = r ∧ wrapCoord cfg.winW c0 ij.2 = c)

/-! ### Fixed-point numerics and the kernel -/

/-- R83: FX_ADD is exact addition wrapped to 16 bits, with its corner cases and example. -/
def Obligations.FxAddWraps : Prop :=
  (∀ a b : Fx, sint16 (fxAdd a b) = Int.bmod (sint16 a + sint16 b) (2 ^ 16)) ∧
  (∀ a : Fx, fxAdd a 0#16 = a) ∧ (∀ a b : Fx, fxAdd a b = fxAdd b a) ∧
  (∀ a b c : Fx, fxAdd (fxAdd a b) c = fxAdd a (fxAdd b c)) ∧
  fxAdd 0x7FFF#16 0x0001#16 = 0x8000#16 ∧ fxAdd 0x145D#16 0x05E8#16 = 0x1A45#16

/-- R84: FX_GE is the signed, inclusive comparison; every negative word is below THRESH. -/
def Obligations.FxGeSignedInclusive : Prop :=
  (∀ a t : Fx, fxGe a t = true ↔ sint16 t ≤ sint16 a) ∧ (∀ a : Fx, fxGe a a = true) ∧
  (∀ t : Fx, t ≠ 0x8000#16 → fxGe (t - 1#16) t = false) ∧
  (∀ a : Fx, sint16 a < 0 → fxGe a thresh = false) ∧ fxGe 0x8000#16 thresh = false ∧
  fxGe 0x1F5C#16 0x1F5C#16 = true ∧ fxGe 0x1F5B#16 0x1F5C#16 = false

/-- R86: the kernel is the written-out table, row-, column- and point-symmetric. -/
def Obligations.KernelTableSymmetric : Prop :=
  ∀ k : KernelTable,
    (kernelIndices.map fun i => kernelIndices.map fun j => kernelInt k i j) =
      [[k.k00, k.k01, k.k02, k.k01, k.k00],
       [k.k10, k.k11, k.ko, k.k11, k.k10],
       [k.k20, k.ko, k.kc, k.ko, k.k20],
       [k.k10, k.k11, k.ko, k.k11, k.k10],
       [k.k00, k.k01, k.k02, k.k01, k.k00]] ∧
    ∀ i j : KIdx, kRead k i j = kRead k i.rev j ∧ kRead k i j = kRead k i j.rev ∧ kRead k i j = kRead k i.rev j.rev

/-- R91: WF_CENTER, WF_ORTH and WF_PEAK bound the positive sum by 32122, so its half of WF_NO_OVERFLOW always holds. -/
def Obligations.PositiveSumAlwaysFits : Prop :=
  ∀ p : Params, Check.passes p .wfCenter = true → Check.passes p .wfOrth = true → Check.passes p .wfPeak = true →
    p.kernel.posSum ≤ 32122 ∧ p.kernel.posSum ≤ 32767

/-- R8, R9, R88, R139: the machine's configuration passes every check; and every admissible choice of the sizes and the
coefficients is left to it, its constants having no body (log entries 1 and 2). -/
def Obligations.ConfigIsAdmissible : Prop :=
  Config.params.admissible = true ∧ Config.params.refusedBy = []

/-- R90: in every admissible configuration, every accumulator over distinct kernel positions, in any order, is the exact
sum of the lit coefficients, between the sum of all negative and the sum of all positive entries, so no add wraps. -/
def Obligations.EvalNeverOverflows : Prop :=
  ∀ cfg : Params, cfg.admissible = true → ∀ (win : Window) (r0 c0 : Nat) (ps : List (KIdx × KIdx)), ps.Nodup →
    sint16 (accOver cfg win r0 c0 ps) = exactSum cfg win r0 c0 ps ∧
    cfg.kernel.negSum ≤ exactSum cfg win r0 c0 ps ∧ exactSum cfg win r0 c0 ps ≤ cfg.kernel.posSum ∧
    -32768 ≤ cfg.kernel.negSum ∧ cfg.kernel.posSum ≤ 32767

/-! ### The evaluator -/

/-- R100: Eval is 1 exactly when the sum of the coefficients of the lit cells of the wrapped patch, with exact integer
addition, is at least 8028; and its example. -/
def Obligations.EvalClosedForm : Prop :=
  (∀ cfg : Params, cfg.admissible = true → ∀ (win : Window) (r0 c0 : Nat), r0 < cfg.winH → c0 < cfg.winW →
    (evalWindow cfg win r0 c0 = true ↔
      8028 ≤ ∑ i : KIdx, ∑ j : KIdx,
        if win.cell ((r0 + i.val) % cfg.winH) ((c0 + j.val) % cfg.winW) ≠ 0 then sint16 (kRead cfg.kernel i j) else 0)) ∧
  (∀ (k11 k00 k01 k02 k10 k20 : Int) (d e : Nat),
    let cfg := Params.withDefaults k11 k00 k01 k02 k10 k20 d e
    accumulator cfg (Window.ofBits cfg 0x1000) 0 0 = 5213#16 ∧ evalWindow cfg (Window.ofBits cfg 0x1000) 0 0 = false)

/-- R103: the 25 positions may be added in any order, or in parts whose sums are added. -/
def Obligations.EvalOrderIndependent : Prop :=
  ∀ (cfg : Params) (win : Window) (r0 c0 : Nat),
    (∀ ps : List (KIdx × KIdx), ps.Perm kernelPositions → accOver cfg win r0 c0 ps = accumulator cfg win r0 c0) ∧
    (∀ ps qs : List (KIdx × KIdx), accOver cfg win r0 c0 (ps ++ qs) =
      fxAdd (accOver cfg win r0 c0 ps) (accOver cfg win r0 c0 qs))

/-- R104: a patch with no lit cell has ACC = 0 and flag 0. -/
def Obligations.EmptyPatchNeverTriggers : Prop :=
  ∀ (cfg : Params) (win : Window) (r0 c0 : Nat), LitExactly cfg win r0 c0 [] →
    accumulator cfg win r0 c0 = 0#16 ∧ evalWindow cfg win r0 c0 = false

/-- R105: a patch lit only at its centre has ACC = KC, in 5212..5214, and flag 0. -/
def Obligations.CentreOnlyNeverTriggers : Prop :=
  ∀ cfg : Params, cfg.admissible = true → ∀ (win : Window) (r0 c0 : Nat), LitExactly cfg win r0 c0 [(2, 2)] →
    sint16 (accumulator cfg win r0 c0) = cfg.kernel.kc ∧ 5212 ≤ cfg.kernel.kc ∧ cfg.kernel.kc ≤ 5214 ∧
    evalWindow cfg win r0 c0 = false

/-- R106: the centre and its four orthogonal neighbours give ACC = KC + 4*KO, in 11256..11266 (11261 at the defaults),
and flag 1. -/
def Obligations.CentrePlusNeighboursTriggers : Prop :=
  ∀ cfg : Params, cfg.admissible = true → ∀ (win : Window) (r0 c0 : Nat), LitExactly cfg win r0 c0 plusPositions →
    sint16 (accumulator cfg win r0 c0) = cfg.kernel.kc + 4 * cfg.kernel.ko ∧
    11256 ≤ cfg.kernel.kc + 4 * cfg.kernel.ko ∧ cfg.kernel.kc + 4 * cfg.kernel.ko ≤ 11266 ∧
    (cfg.kernel.kc = 5213 → cfg.kernel.ko = 1512 → accumulator cfg win r0 c0 = 11261#16) ∧
    evalWindow cfg win r0 c0 = true

/-- R107: beyond the last row or column the patch reads from the first again; a window whose one lit cell lies in row 0
gives flag 0 from the last row, at every column offset. -/
def Obligations.WraparoundReadsFirstRow : Prop :=
  ∀ cfg : Params, cfg.admissible = true →
    wrapCoord cfg.winH (cfg.winH - 1) 1 = 0 ∧ wrapCoord cfg.winW (cfg.winW - 1) 1 = 0 ∧
    (∀ (r0 : Nat) (i : KIdx), r0 < cfg.winH → cfg.winH ≤ r0 + i.val →
      wrapCoord cfg.winH r0 i = r0 + i.val - cfg.winH) ∧
    (∀ (c0 : Nat) (j : KIdx), c0 < cfg.winW → cfg.winW ≤ c0 + j.val →
      wrapCoord cfg.winW c0 j = c0 + j.val - cfg.winW) ∧
    (∀ (win : Window) (c : Nat), c < cfg.winW →
      (∀ r' c', r' < cfg.winH → c' < cfg.winW → (win.cell r' c' ≠ 0 ↔ r' = 0 ∧ c' = c)) →
      ∀ c0, c0 < cfg.winW → evalWindow cfg win (cfg.winH - 1) c0 = false)

/-- R108: a patch with exactly one lit cell has ACC = the coefficient there, at most KC <= 5214, and flag 0. -/
def Obligations.OneLitCellNeverTriggers : Prop :=
  ∀ cfg : Params, cfg.admissible = true → ∀ (win : Window) (r0 c0 : Nat) (i j : KIdx),
    LitExactly cfg win r0 c0 [(i, j)] →
    accumulator cfg win r0 c0 = kRead cfg.kernel i j ∧
    sint16 (kRead cfg.kernel i j) ≤ cfg.kernel.kc ∧ cfg.kernel.kc ≤ 5214 ∧ evalWindow cfg win r0 c0 = false

/-- R93: the all-lit patch has ACC = S_ALL, and its flag is S_ALL >= THRESH; admissible tables exist with either value. -/
def Obligations.AllLitStaysSymbolic : Prop :=
  (∀ cfg : Params, cfg.admissible = true → ∀ (win : Window) (r0 c0 : Nat),
    (∀ i j, litAt cfg win r0 c0 i j = true) →
    sint16 (accumulator cfg win r0 c0) = cfg.kernel.sAll ∧
    (evalWindow cfg win r0 c0 = true ↔ sint16 thresh ≤ cfg.kernel.sAll)) ∧
  (∃ k : KernelTable, k.admissible = true ∧ sint16 thresh ≤ k.sAll) ∧
  (∃ k : KernelTable, k.admissible = true ∧ k.sAll < sint16 thresh)

/-! ### Steps, turns and the command port -/

/-- A step runs the transaction of the next turn: the agent's own, the fresh offer put on an empty command port, or the
offer that stands there; a command step at an empty port changes nothing; the end of the host's commands is noted, and after
it a fresh command is not offered; an empty agenda is served by the free schedule (R22, R117, R125, R135; log entries 3, 5
and 18). -/
def Obligations.StepRunsTheTurn : Prop :=
  (∀ (s : State) (a : Action) (rest : List Turn), (∀ o, a ≠ .command o) → s.agenda = .act a :: rest →
    step s = exec (decode Config.params a) { s with agenda := rest }) ∧
  (∀ (s : State) (o : Offer) (rest : List Turn), s.agenda = .act (.command o) :: rest → s.cmdOffer = none →
    s.commandsEnded = false → step s = exec (decodeCommand o.word (Window.ofBits Config.params o.winBits))
      { s with agenda := rest, cmdOffer := some o }) ∧
  (∀ (s : State) (o : Offer) (rest : List Turn), s.agenda = .act (.command o) :: rest → s.cmdOffer = none →
    s.commandsEnded = true → step s = .next { s with agenda := rest }) ∧
  (∀ (s : State) (o : Offer) (t : Turn) (rest : List Turn), s.cmdOffer = some o →
    (t = .commandStep ∨ ∃ o', t = .act (.command o')) → s.agenda = t :: rest →
    step s = exec (decodeCommand o.word (Window.ofBits Config.params o.winBits)) { s with agenda := rest }) ∧
  (∀ (s : State) (rest : List Turn), s.cmdOffer = none → s.agenda = .commandStep :: rest →
    step s = .next { s with agenda := rest }) ∧
  (∀ (s : State) (rest : List Turn), s.agenda = .endCommands :: rest →
    step s = .next { s with agenda := rest, commandsEnded := true }) ∧
  (∀ s : State, s.agenda = [] → step s = step { s with agenda := [Config.schedule s.turns], turns := s.turns + 1 })

/-- A command word laid at the command port is what the next step decodes and runs (log entry 13). -/
def Obligations.FetchWordRunsNext : Prop :=
  ∀ (s : State) (w : Nat) (i : Instr), decodeTableWord 32 w = some i →
    step (s.withFetchWord 32 w) = exec i { s with cmdOffer := some ⟨BitVec.ofNat 32 w, 0⟩ }

/-- R117, R155: a command offered during a frame or a fault is held at the port with nothing else changed, and is the one
accepted by a later command step once the port is ready, with the effect of its own decoding. That the port is empty
after the acceptance is the model's reading (log entry 5). -/
def Obligations.OfferHeldUntilReady : Prop :=
  (∀ (s : State) (o : Offer) (rest : List Turn), s.cmdOffer = none → s.commandsEnded = false → s.agenda = .act (.command o) :: rest →
    (s.busy = true ∨ s.fault = true) → step s = .next { s with agenda := rest, cmdOffer := some o }) ∧
  (∀ (s : State) (o : Offer) (rest : List Turn), s.cmdOffer = some o → s.agenda = .commandStep :: rest →
    (s.busy = true ∨ s.fault = true) → step s = .next { s with agenda := rest }) ∧
  (∀ (s : State) (o : Offer) (rest : List Turn), s.cmdOffer = some o → s.agenda = .commandStep :: rest →
    s.busy = false → s.fault = false →
      step s = exec (decodeCommand o.word (Window.ofBits Config.params o.winBits)) { s with agenda := rest } ∧
      ∃ t : State, step s = .next t ∧ t.cmdOffer = none ∧
        (fieldOp o.word = 1#4 → fieldA o.word ≠ 0#14 → fieldB o.word ≠ 0#14 →
          t = { s with
            agenda := rest, cmdOffer := none, frameW := fieldB o.word, frameH := fieldA o.word, pixCount := 0#28,
            done := false, busy := true }) ∧
        (fieldOp o.word = 1#4 → (fieldA o.word = 0#14 ∨ fieldB o.word = 0#14) →
          t = { s with
            agenda := rest, cmdOffer := none, fault := true, faultCause := .frameZero, faultInfo := o.word }) ∧
        (fieldOp o.word = 2#4 → (fieldA o.word).toNat < Config.params.winH → (fieldB o.word).toNat < Config.params.winW →
          t = { s with
            agenda := rest, cmdOffer := none, evalValid := true,
            evalFlag := evalWindow Config.params (Window.ofBits Config.params o.winBits) (fieldA o.word).toNat
              (fieldB o.word).toNat }) ∧
        (fieldOp o.word = 2#4 →
          (Config.params.winH ≤ (fieldA o.word).toNat ∨ Config.params.winW ≤ (fieldB o.word).toNat) →
          t = { s with
            agenda := rest, cmdOffer := none, fault := true, faultCause := .evalOffset, faultInfo := o.word }) ∧
        (fieldOp o.word ≠ 1#4 → fieldOp o.word ≠ 2#4 →
          t = { s with
            agenda := rest, cmdOffer := none, fault := true, faultCause := .cmdReserved, faultInfo := o.word }))

/-- No transaction stops the machine, so every state has a next state: a fault is a next state (log entry 9), and a turn
that is not enabled is a step that changes nothing else (log entry 3). Both are the model's reading of spec/00_scope.md
and spec/60_exceptions.md. -/
def Obligations.EveryStateHasANextState : Prop :=
  (∀ (i : Instr) (s : State), ∃ t : State, exec i s = .next t) ∧ (∀ s : State, ∃ t : State, step s = .next t)

/-- R16, R17: a transaction that is not enabled holds, and nothing changes. -/
def Obligations.DisabledTransactionsHold : Prop :=
  ∀ (i : Instr) (s : State), instrEnabled Config.params s i = false → exec i s = .next s

/-! ### What each register can do, over all transactions -/

/-- R27: BUSY rises only when FRAME_START is accepted and falls only at the frame's last pixel or at reset. -/
def Obligations.BusyChangesOnlyByItsEvents : Prop :=
  ∀ (i : Instr) (s t : State), exec i s = .next t → t.busy ≠ s.busy →
    (t.busy = true ∧ ∃ h w, i = .frameStart h w ∧ h ≠ 0#14 ∧ w ≠ 0#14) ∨
    (t.busy = false ∧ i = .pixelComplete ∧ s.pixCount.toNat + 1 = frameSize s ∧ t.done = true) ∨
    (t.busy = false ∧ i = .reset)

/-- R28: only frame completion sets DONE; only an accepted FRAME_START and reset clear it. -/
def Obligations.DoneChangesOnlyByItsEvents : Prop :=
  ∀ (i : Instr) (s t : State), exec i s = .next t → t.done ≠ s.done →
    (t.done = true ∧ i = .pixelComplete ∧ s.pixCount.toNat + 1 = frameSize s ∧ t.busy = false) ∨
    (t.done = false ∧ ((∃ h w, i = .frameStart h w ∧ t.busy = true) ∨ i = .reset))

/-- R29, R131: without a reset, a recorded fault stays as it was recorded; a fault appears only with the cause, under
the condition and with the value that R130 gives the transaction that raised it. -/
def Obligations.FaultRecordIsSticky : Prop :=
  ∀ (i : Instr) (s t : State), exec i s = .next t →
    (s.fault = true → i ≠ .reset → t.fault = true ∧ t.faultCause = s.faultCause ∧ t.faultInfo = s.faultInfo) ∧
    (s.fault = false → t.fault = false → i ≠ .reset → t.faultCause = s.faultCause ∧ t.faultInfo = s.faultInfo) ∧
    (s.fault = false → t.fault = true →
      (t.faultCause = .cmdReserved ∧
        ∃ cmd, commandWord i = some cmd ∧ fieldOp cmd ≠ 1#4 ∧ fieldOp cmd ≠ 2#4 ∧ t.faultInfo = cmd) ∨
      (t.faultCause = .frameZero ∧
        ∃ h w, i = .frameStart h w ∧ (h = 0#14 ∨ w = 0#14) ∧ t.faultInfo = frameStartWord h w) ∨
      (t.faultCause = .evalOffset ∧
        ∃ row col win, i = .eval row col win ∧ (Config.params.winH ≤ row.toNat ∨ Config.params.winW ≤ col.toNat) ∧
          t.faultInfo = evalWord row col) ∨
      (t.faultCause = .srcOffset ∧ i = .pixelComplete ∧
        ∃ rsp, s.wsRsp = some rsp ∧
          (Config.params.winH ≤ rsp.startRow.toNat ∨ Config.params.winW ≤ rsp.startCol.toNat) ∧
          t.faultInfo = rsp.startRow ++ rsp.startCol))

/-- R133: a transaction that raises a fault pushes no flag, does not advance PIX_COUNT and writes neither EVAL_FLAG,
EVAL_VALID, FRAME_W, FRAME_H, DONE nor BUSY. -/
def Obligations.FaultsArePrecise : Prop :=
  ∀ (i : Instr) (s t : State), exec i s = .next t → s.fault = false → t.fault = true →
    t.fOut = s.fOut ∧ t.pixCount = s.pixCount ∧ t.evalFlag = s.evalFlag ∧ t.evalValid = s.evalValid ∧
    t.frameW = s.frameW ∧ t.frameH = s.frameH ∧ t.done = s.done ∧ t.busy = s.busy ∧ t.sIn = s.sIn

/-- R30: EVAL_VALID and EVAL_FLAG are written by a successful EVAL and cleared by reset only. -/
def Obligations.EvalRegistersOnlyByEval : Prop :=
  ∀ (i : Instr) (s t : State), exec i s = .next t → (t.evalValid ≠ s.evalValid ∨ t.evalFlag ≠ s.evalFlag) →
    (i = .reset ∧ t.evalValid = false ∧ t.evalFlag = false) ∨
    (∃ row col win, i = .eval row col win ∧ t.evalValid = true ∧ t.fault = false ∧
      t.evalFlag = evalWindow Config.params win row.toNat col.toNat)

/-- R31, R32: FRAME_W and FRAME_H change only at an accepted FRAME_START or reset; PIX_COUNT also advances by 1 when a
flag is pushed. -/
def Obligations.FrameRegistersChange : Prop :=
  ∀ (i : Instr) (s t : State), exec i s = .next t →
    ((t.frameW ≠ s.frameW ∨ t.frameH ≠ s.frameH) → (i = .reset ∨ i = .frameStart t.frameH t.frameW)) ∧
    (t.pixCount ≠ s.pixCount →
      (t.pixCount = 0#28 ∧ (i = .reset ∨ i = .frameStart t.frameH t.frameW)) ∨
      (i = .pixelComplete ∧ t.pixCount = s.pixCount + 1#28 ∧ ∃ f, t.fOut = s.fOut ++ [f]))

/-- R33, R34, R57, R59: S_IN and F_OUT are FIFOs: pushed at the tail, popped at the head, and emptied by reset only. -/
def Obligations.StreamsAreFifos : Prop :=
  ∀ (i : Instr) (s t : State), exec i s = .next t →
    (t.sIn = s.sIn ∨ (∃ smp, i = .push smp ∧ t.sIn = s.sIn ++ [smp]) ∨
      (∃ q, i = .pixelIssue ∧ t.wsReq = some q ∧ s.sIn = q.s :: t.sIn) ∨ (i = .reset ∧ t.sIn = [])) ∧
    (t.fOut = s.fOut ∨ (∃ f, i = .pixelComplete ∧ t.fOut = s.fOut ++ [f] ∧ t.pixCount = s.pixCount + 1#28) ∨
      (i = .pop ∧ ∃ f, s.fOut = f :: t.fOut) ∨ (i = .reset ∧ t.fOut = []))

/-- R35, R36, R111-R113: only ISSUE sets WS_REQ and only the window source or reset clears it; only the window source sets
WS_RSP and only COMPLETE or reset clears it. -/
def Obligations.WsChannelWriters : Prop :=
  ∀ (i : Instr) (s t : State), exec i s = .next t →
    (t.wsReq ≠ s.wsReq → (i = .pixelIssue ∧ s.wsReq = none ∧ t.wsReq ≠ none) ∨
      ((i = .wsAnswer ∨ i = .reset) ∧ t.wsReq = none)) ∧
    (t.wsRsp ≠ s.wsRsp → (i = .wsAnswer ∧ s.wsReq ≠ none ∧ t.wsRsp ≠ none) ∨
      ((i = .pixelComplete ∨ i = .reset) ∧ t.wsRsp = none))

/-! ### Invariants and whole-machine rules -/

/-- The invariant holds after reset (R44, R150). Its last two clauses speak of fields of the model's own, whose start values
are the model's choice (log entries 6 and 8), and of the history, which requests join as log entry 4 says. -/
def Obligations.InvHoldsAtReset : Prop := State.reset.Inv Config.params

/-- Every step keeps the invariant (R27-R36, R114, R130-R132), whatever the turn, the window source and the configuration.
Its last two clauses count flags and requests (after R32, R59 and R119) in the record of popped flags and in the history:
both are the model's choice (log entries 4, 6 and 8). -/
def Obligations.StepKeepsInv : Prop :=
  ∀ s t : State, s.Inv Config.params → step s = .next t → t.Inv Config.params

/-- R132: from a faulted state, a step that is not RESET leaves every register, the channel and the history alone; only a
push to S_IN, a pop from F_OUT, a held offer and what the host is given can change. RESET clears the fault. -/
def Obligations.FaultedStateIsQuiescent : Prop :=
  ∀ s t : State, s.Inv Config.params → s.fault = true → step s = .next t →
    ((nextTurn s).1 ≠ .act .reset →
      t.busy = s.busy ∧ t.done = s.done ∧ t.fault = true ∧ t.faultCause = s.faultCause ∧ t.faultInfo = s.faultInfo ∧
      t.evalValid = s.evalValid ∧ t.evalFlag = s.evalFlag ∧ t.frameW = s.frameW ∧ t.frameH = s.frameH ∧
      t.pixCount = s.pixCount ∧ t.wsReq = none ∧ t.wsRsp = none ∧ t.wsHistory = s.wsHistory ∧
      (t.sIn = s.sIn ∨ ∃ smp, t.sIn = s.sIn ++ [smp]) ∧ (t.fOut = s.fOut ∨ ∃ f, s.fOut = f :: t.fOut)) ∧
    ((nextTurn s).1 = .act .reset → t.fault = false)

/-- R123, R111: a pending request is the one for pixel PIX_COUNT, at row p div W and column p mod W, inside the frame. -/
def Obligations.RequestIsAtRasterPosition : Prop :=
  ∀ (s : State) (q : WsRequest), s.Inv Config.params → s.wsReq = some q →
    q.p = s.pixCount ∧ q.row.toNat = q.p.toNat / s.frameW.toNat ∧ q.col.toNat = q.p.toNat % s.frameW.toNat ∧
    q.row.toNat < s.frameH.toNat ∧ q.col.toNat < s.frameW.toNat

/-- R122: what COMPLETE does depends on the sample stream only through the answered window: other samples, another
history and another request leave its effect on every other field the same. -/
def Obligations.FlagIgnoresSamples : Prop :=
  ∀ (s t : State) (xs : List Bool) (hist : List WsRequest) (req : Option WsRequest), exec .pixelComplete s = .next t →
    exec .pixelComplete { s with sIn := xs, wsHistory := hist, wsReq := req } =
      .next { t with sIn := xs, wsHistory := hist, wsReq := req }

/-- R59, R119-R121: from a frame with n pixels to go, enough samples and enough room, n rounds of ISSUE, WS_ANSWER and
COMPLETE either complete the frame or stop at the first answer whose offset lies outside the window (cause 4). The k-th flag
appended to F_OUT is Eval of the window answered to the k-th request, which carries p = PIX_COUNT + k and the k-th sample;
exactly the samples requested for are consumed from the head of S_IN. The order of the turns and the step in which a
request joins the history are the model's choices (log entries 3 and 4). -/
def Obligations.FrameCompletesWithOneFlagPerSample : Prop :=
  ∀ (s : State) (n : Nat), s.Inv Config.params → s.busy = true → s.fault = false → s.wsReq = none → s.wsRsp = none →
    s.pixCount.toNat + n = frameSize s → n ≤ s.sIn.length → s.fOut.length + n ≤ Config.params.outDepth →
    s.agenda = pixelRounds n →
    ∃ t : State, Host.Core.run core (3 * n) s = .next t ∧
      ((∃ k, k < n ∧ (∀ j, j < k → offsetAheadOk s j = true) ∧ offsetAheadOk s k = false ∧
        t.fault = true ∧ t.faultCause = .srcOffset ∧
        t.faultInfo = (answerAhead s k).startRow ++ (answerAhead s k).startCol ∧ t.busy = true ∧
        t.pixCount.toNat = s.pixCount.toNat + k ∧ t.wsReq = none ∧ t.wsRsp = none ∧ t.sIn = s.sIn.drop (k + 1) ∧
        t.fOut = s.fOut ++ flagsAhead s k ∧ t.wsHistory = s.wsHistory ++ requestsAhead s (k + 1)) ∨
       ((∀ k, k < n → offsetAheadOk s k = true) ∧
        t.fault = false ∧ t.busy = false ∧ t.done = true ∧ t.pixCount.toNat = frameSize s ∧
        t.wsReq = none ∧ t.wsRsp = none ∧ t.sIn = s.sIn.drop n ∧
        t.fOut = s.fOut ++ flagsAhead s n ∧ t.wsHistory = s.wsHistory ++ requestsAhead s n))

/-- R161, R125: what holds in each of the four admitted deadlocks. No sample and an empty channel (1), or a full F_OUT with
an answer waiting (2): every DRIVER and every WS transaction. A host that waits for a command to be accepted during the
frame (3): every command. A request that the source does not answer (4): every DRIVER transaction (the WS step is
enabled there, and lifts the hold). None of these states is finished. -/
def Obligations.DeadlocksAreHolds : Prop :=
  ∀ s : State, s.busy = true →
    (s.wsReq = none →
      ((s.sIn = [] ∧ s.wsRsp = none) ∨ (s.wsRsp ≠ none ∧ Config.params.outDepth ≤ s.fOut.length)) →
      ∀ i : Instr, instrAgent i ≠ .host → exec i s = .next s) ∧
    (∀ i : Instr, commandWord i ≠ none → exec i s = .next s) ∧
    (s.wsReq ≠ none → s.wsRsp = none →
      (∀ i : Instr, instrAgent i = .driver → exec i s = .next s) ∧ instrEnabled Config.params s .wsAnswer = true) ∧
    s.finished = false

/-- R158, R160: on a run that is weakly fair for the window source, a pending request does not stay pending for ever. -/
def Obligations.FairSourceAnswersRequest : Prop :=
  ∀ (s : State) (q : WsRequest), s.wsReq = some q → FairFor .answer answerEnabled s →
    ∃ n, (stateAfter s n).wsReq = none

/-! ### The end of a run -/

/-- R125: the state in which a run is finished, and its result. A finished run stays finished, with the same result, through
every step but RESET, which begins another run. How the host says that it offers no further command, and where the popped
flags stand, is the model's choice (log entries 6 and 18). -/
def Obligations.FinishedRunKeepsItsResult : Prop :=
  (∀ s : State, s.finished = true ↔
    s.fault = false ∧ s.busy = false ∧ s.wsReq = none ∧ s.wsRsp = none ∧ s.cmdOffer = none ∧ s.commandsEnded = true) ∧
  (∀ s : State, s.result.flags = s.popped ++ s.fOut ∧ s.result.status = statusBundle s 0 ∧
    s.result.frameDim = statusBundle s 1 ∧ s.result.pixCount = statusBundle s 2) ∧
  (∀ s t : State, s.finished = true → step s = .next t →
    ((nextTurn s).1 ≠ .act .reset → t.finished = true ∧ t.result = s.result) ∧
    ((nextTurn s).1 = .act .reset → t.finished = false ∧ t.result.flags = []))
end

