-- ==== Sys2Proof/Laws/Encoding.lean ====
section
/-!
SUPPORT. The fields of each command word the encoder writes (spec/30_encoding.md R68-R71).
-/

namespace Sys2Proof

@[simp] theorem fieldOp_frameStartWord (h w : BitVec 14) : fieldOp (frameStartWord h w) = 1#4 := by
  refine BitVec.eq_of_getLsbD_eq fun i hi => ?_
  simp only [frameStartWord, fieldOp, BitVec.getLsbD_extractLsb', BitVec.getLsbD_append]
  interval_cases i <;> simp

@[simp] theorem fieldA_frameStartWord (h w : BitVec 14) : fieldA (frameStartWord h w) = h := by
  refine BitVec.eq_of_getLsbD_eq fun i hi => ?_
  simp only [frameStartWord, fieldA, BitVec.getLsbD_extractLsb', BitVec.getLsbD_append]
  simp [hi]

@[simp] theorem fieldB_frameStartWord (h w : BitVec 14) : fieldB (frameStartWord h w) = w := by
  refine BitVec.eq_of_getLsbD_eq fun i hi => ?_
  simp only [frameStartWord, fieldB, BitVec.getLsbD_extractLsb', BitVec.getLsbD_append]
  simp [hi]

@[simp] theorem fieldOp_evalWord (row col : BitVec 14) : fieldOp (evalWord row col) = 2#4 := by
  refine BitVec.eq_of_getLsbD_eq fun i hi => ?_
  simp only [evalWord, fieldOp, BitVec.getLsbD_extractLsb', BitVec.getLsbD_append]
  interval_cases i <;> simp

@[simp] theorem fieldA_evalWord (row col : BitVec 14) : fieldA (evalWord row col) = row := by
  refine BitVec.eq_of_getLsbD_eq fun i hi => ?_
  simp only [evalWord, fieldA, BitVec.getLsbD_extractLsb', BitVec.getLsbD_append]
  simp [hi]

@[simp] theorem fieldB_evalWord (row col : BitVec 14) : fieldB (evalWord row col) = col := by
  refine BitVec.eq_of_getLsbD_eq fun i hi => ?_
  simp only [evalWord, fieldB, BitVec.getLsbD_extractLsb', BitVec.getLsbD_append]
  simp [hi]

@[simp] theorem fieldOp_reservedOp0Word (x : BitVec 28) : fieldOp (reservedOp0Word x) = 0#4 := by
  refine BitVec.eq_of_getLsbD_eq fun i hi => ?_
  simp only [reservedOp0Word, fieldOp, BitVec.getLsbD_extractLsb', BitVec.getLsbD_append]
  interval_cases i <;> simp

@[simp] theorem operand_reservedOp0Word (x : BitVec 28) : BitVec.extractLsb' 0 28 (reservedOp0Word x) = x := by
  refine BitVec.eq_of_getLsbD_eq fun i hi => ?_
  simp only [reservedOp0Word, BitVec.getLsbD_extractLsb', BitVec.getLsbD_append]
  simp [hi]

@[simp] theorem fieldOp_reservedOp3Word (x : BitVec 28) : fieldOp (reservedOp3Word x) = 3#4 := by
  refine BitVec.eq_of_getLsbD_eq fun i hi => ?_
  simp only [reservedOp3Word, fieldOp, BitVec.getLsbD_extractLsb', BitVec.getLsbD_append]
  interval_cases i <;> simp

@[simp] theorem operand_reservedOp3Word (x : BitVec 28) : BitVec.extractLsb' 0 28 (reservedOp3Word x) = x := by
  refine BitVec.eq_of_getLsbD_eq fun i hi => ?_
  simp only [reservedOp3Word, BitVec.getLsbD_extractLsb', BitVec.getLsbD_append]
  simp [hi]

@[simp] theorem opHigh_reservedOp4To7Word (x : BitVec 30) : BitVec.extractLsb' 30 2 (reservedOp4To7Word x) = 1#2 := by
  refine BitVec.eq_of_getLsbD_eq fun i hi => ?_
  simp only [reservedOp4To7Word, BitVec.getLsbD_extractLsb', BitVec.getLsbD_append]
  interval_cases i <;> simp

@[simp] theorem operand_reservedOp4To7Word (x : BitVec 30) : BitVec.extractLsb' 0 30 (reservedOp4To7Word x) = x := by
  refine BitVec.eq_of_getLsbD_eq fun i hi => ?_
  simp only [reservedOp4To7Word, BitVec.getLsbD_extractLsb', BitVec.getLsbD_append]
  simp [hi]

@[simp] theorem opHigh_reservedOp8ToFWord (x : BitVec 31) : BitVec.extractLsb' 31 1 (reservedOp8ToFWord x) = 1#1 := by
  refine BitVec.eq_of_getLsbD_eq fun i hi => ?_
  simp only [reservedOp8ToFWord, BitVec.getLsbD_extractLsb', BitVec.getLsbD_append]
  interval_cases i
  simp

@[simp] theorem operand_reservedOp8ToFWord (x : BitVec 31) : BitVec.extractLsb' 0 31 (reservedOp8ToFWord x) = x := by
  refine BitVec.eq_of_getLsbD_eq fun i hi => ?_
  simp only [reservedOp8ToFWord, BitVec.getLsbD_extractLsb', BitVec.getLsbD_append]
  simp [hi]

/-- The top two bits of a word are the top two bits of its opcode. -/
theorem opHigh_of_fieldOp (cmd : Word) : cmd.extractLsb' 30 2 = (fieldOp cmd).extractLsb' 2 2 := by
  refine BitVec.eq_of_getLsbD_eq fun i hi => ?_
  simp only [fieldOp, BitVec.getLsbD_extractLsb']
  interval_cases i <;> simp

/-- The top bit of a word is the top bit of its opcode. -/
theorem opTop_of_fieldOp (cmd : Word) : cmd.extractLsb' 31 1 = (fieldOp cmd).extractLsb' 3 1 := by
  refine BitVec.eq_of_getLsbD_eq fun i hi => ?_
  simp only [fieldOp, BitVec.getLsbD_extractLsb']
  interval_cases i <;> simp

end Sys2Proof
end

