-- ==== Sys2Proof/Laws/State.lean ====
section
/-!
SUPPORT. What each update of the state does to each field, and the fields of the state after reset.
-/

namespace Sys2Proof.Machine

/-! ### raiseFault -/

@[simp] theorem raiseFault_busy (c : FaultCause) (info : Word) (s : State) : (raiseFault c info s).busy = s.busy := rfl
@[simp] theorem raiseFault_done (c : FaultCause) (info : Word) (s : State) : (raiseFault c info s).done = s.done := rfl
@[simp] theorem raiseFault_fault (c : FaultCause) (info : Word) (s : State) : (raiseFault c info s).fault = true := rfl
@[simp] theorem raiseFault_faultCause (c : FaultCause) (info : Word) (s : State) : (raiseFault c info s).faultCause = c := rfl
@[simp] theorem raiseFault_faultInfo (c : FaultCause) (info : Word) (s : State) : (raiseFault c info s).faultInfo = info := rfl
@[simp] theorem raiseFault_evalValid (c : FaultCause) (info : Word) (s : State) : (raiseFault c info s).evalValid = s.evalValid := rfl
@[simp] theorem raiseFault_evalFlag (c : FaultCause) (info : Word) (s : State) : (raiseFault c info s).evalFlag = s.evalFlag := rfl
@[simp] theorem raiseFault_frameW (c : FaultCause) (info : Word) (s : State) : (raiseFault c info s).frameW = s.frameW := rfl
@[simp] theorem raiseFault_frameH (c : FaultCause) (info : Word) (s : State) : (raiseFault c info s).frameH = s.frameH := rfl
@[simp] theorem raiseFault_pixCount (c : FaultCause) (info : Word) (s : State) : (raiseFault c info s).pixCount = s.pixCount := rfl
@[simp] theorem raiseFault_sIn (c : FaultCause) (info : Word) (s : State) : (raiseFault c info s).sIn = s.sIn := rfl
@[simp] theorem raiseFault_fOut (c : FaultCause) (info : Word) (s : State) : (raiseFault c info s).fOut = s.fOut := rfl
@[simp] theorem raiseFault_wsReq (c : FaultCause) (info : Word) (s : State) : (raiseFault c info s).wsReq = s.wsReq := rfl
@[simp] theorem raiseFault_wsRsp (c : FaultCause) (info : Word) (s : State) : (raiseFault c info s).wsRsp = s.wsRsp := rfl
@[simp] theorem raiseFault_wsHistory (c : FaultCause) (info : Word) (s : State) : (raiseFault c info s).wsHistory = s.wsHistory := rfl
@[simp] theorem raiseFault_cmdOffer (c : FaultCause) (info : Word) (s : State) : (raiseFault c info s).cmdOffer = s.cmdOffer := rfl
@[simp] theorem raiseFault_popped (c : FaultCause) (info : Word) (s : State) : (raiseFault c info s).popped = s.popped := rfl
@[simp] theorem raiseFault_statusReads (c : FaultCause) (info : Word) (s : State) : (raiseFault c info s).statusReads = s.statusReads := rfl
@[simp] theorem raiseFault_commandsEnded (c : FaultCause) (info : Word) (s : State) : (raiseFault c info s).commandsEnded = s.commandsEnded := rfl
@[simp] theorem raiseFault_agenda (c : FaultCause) (info : Word) (s : State) : (raiseFault c info s).agenda = s.agenda := rfl
@[simp] theorem raiseFault_turns (c : FaultCause) (info : Word) (s : State) : (raiseFault c info s).turns = s.turns := rfl
@[simp] theorem raiseFault_draws (c : FaultCause) (info : Word) (s : State) : (raiseFault c info s).draws = s.draws := rfl

/-! ### takeOffer -/

@[simp] theorem takeOffer_busy (s : State) : (takeOffer s).busy = s.busy := rfl
@[simp] theorem takeOffer_done (s : State) : (takeOffer s).done = s.done := rfl
@[simp] theorem takeOffer_fault (s : State) : (takeOffer s).fault = s.fault := rfl
@[simp] theorem takeOffer_faultCause (s : State) : (takeOffer s).faultCause = s.faultCause := rfl
@[simp] theorem takeOffer_faultInfo (s : State) : (takeOffer s).faultInfo = s.faultInfo := rfl
@[simp] theorem takeOffer_evalValid (s : State) : (takeOffer s).evalValid = s.evalValid := rfl
@[simp] theorem takeOffer_evalFlag (s : State) : (takeOffer s).evalFlag = s.evalFlag := rfl
@[simp] theorem takeOffer_frameW (s : State) : (takeOffer s).frameW = s.frameW := rfl
@[simp] theorem takeOffer_frameH (s : State) : (takeOffer s).frameH = s.frameH := rfl
@[simp] theorem takeOffer_pixCount (s : State) : (takeOffer s).pixCount = s.pixCount := rfl
@[simp] theorem takeOffer_sIn (s : State) : (takeOffer s).sIn = s.sIn := rfl
@[simp] theorem takeOffer_fOut (s : State) : (takeOffer s).fOut = s.fOut := rfl
@[simp] theorem takeOffer_wsReq (s : State) : (takeOffer s).wsReq = s.wsReq := rfl
@[simp] theorem takeOffer_wsRsp (s : State) : (takeOffer s).wsRsp = s.wsRsp := rfl
@[simp] theorem takeOffer_wsHistory (s : State) : (takeOffer s).wsHistory = s.wsHistory := rfl
@[simp] theorem takeOffer_cmdOffer (s : State) : (takeOffer s).cmdOffer = none := rfl
@[simp] theorem takeOffer_popped (s : State) : (takeOffer s).popped = s.popped := rfl
@[simp] theorem takeOffer_statusReads (s : State) : (takeOffer s).statusReads = s.statusReads := rfl
@[simp] theorem takeOffer_commandsEnded (s : State) : (takeOffer s).commandsEnded = s.commandsEnded := rfl
@[simp] theorem takeOffer_agenda (s : State) : (takeOffer s).agenda = s.agenda := rfl
@[simp] theorem takeOffer_turns (s : State) : (takeOffer s).turns = s.turns := rfl
@[simp] theorem takeOffer_draws (s : State) : (takeOffer s).draws = s.draws := rfl

/-! ### endCommands -/

@[simp] theorem endCommands_busy (s : State) : (endCommands s).busy = s.busy := rfl
@[simp] theorem endCommands_done (s : State) : (endCommands s).done = s.done := rfl
@[simp] theorem endCommands_fault (s : State) : (endCommands s).fault = s.fault := rfl
@[simp] theorem endCommands_faultCause (s : State) : (endCommands s).faultCause = s.faultCause := rfl
@[simp] theorem endCommands_faultInfo (s : State) : (endCommands s).faultInfo = s.faultInfo := rfl
@[simp] theorem endCommands_evalValid (s : State) : (endCommands s).evalValid = s.evalValid := rfl
@[simp] theorem endCommands_evalFlag (s : State) : (endCommands s).evalFlag = s.evalFlag := rfl
@[simp] theorem endCommands_frameW (s : State) : (endCommands s).frameW = s.frameW := rfl
@[simp] theorem endCommands_frameH (s : State) : (endCommands s).frameH = s.frameH := rfl
@[simp] theorem endCommands_pixCount (s : State) : (endCommands s).pixCount = s.pixCount := rfl
@[simp] theorem endCommands_sIn (s : State) : (endCommands s).sIn = s.sIn := rfl
@[simp] theorem endCommands_fOut (s : State) : (endCommands s).fOut = s.fOut := rfl
@[simp] theorem endCommands_wsReq (s : State) : (endCommands s).wsReq = s.wsReq := rfl
@[simp] theorem endCommands_wsRsp (s : State) : (endCommands s).wsRsp = s.wsRsp := rfl
@[simp] theorem endCommands_wsHistory (s : State) : (endCommands s).wsHistory = s.wsHistory := rfl
@[simp] theorem endCommands_cmdOffer (s : State) : (endCommands s).cmdOffer = s.cmdOffer := rfl
@[simp] theorem endCommands_popped (s : State) : (endCommands s).popped = s.popped := rfl
@[simp] theorem endCommands_statusReads (s : State) : (endCommands s).statusReads = s.statusReads := rfl
@[simp] theorem endCommands_commandsEnded (s : State) : (endCommands s).commandsEnded = true := rfl
@[simp] theorem endCommands_agenda (s : State) : (endCommands s).agenda = s.agenda := rfl
@[simp] theorem endCommands_turns (s : State) : (endCommands s).turns = s.turns := rfl
@[simp] theorem endCommands_draws (s : State) : (endCommands s).draws = s.draws := rfl

/-! ### pushSample -/

@[simp] theorem pushSample_busy (smp : Bool) (s : State) : (pushSample smp s).busy = s.busy := rfl
@[simp] theorem pushSample_done (smp : Bool) (s : State) : (pushSample smp s).done = s.done := rfl
@[simp] theorem pushSample_fault (smp : Bool) (s : State) : (pushSample smp s).fault = s.fault := rfl
@[simp] theorem pushSample_faultCause (smp : Bool) (s : State) : (pushSample smp s).faultCause = s.faultCause := rfl
@[simp] theorem pushSample_faultInfo (smp : Bool) (s : State) : (pushSample smp s).faultInfo = s.faultInfo := rfl
@[simp] theorem pushSample_evalValid (smp : Bool) (s : State) : (pushSample smp s).evalValid = s.evalValid := rfl
@[simp] theorem pushSample_evalFlag (smp : Bool) (s : State) : (pushSample smp s).evalFlag = s.evalFlag := rfl
@[simp] theorem pushSample_frameW (smp : Bool) (s : State) : (pushSample smp s).frameW = s.frameW := rfl
@[simp] theorem pushSample_frameH (smp : Bool) (s : State) : (pushSample smp s).frameH = s.frameH := rfl
@[simp] theorem pushSample_pixCount (smp : Bool) (s : State) : (pushSample smp s).pixCount = s.pixCount := rfl
@[simp] theorem pushSample_sIn (smp : Bool) (s : State) : (pushSample smp s).sIn = s.sIn ++ [smp] := rfl
@[simp] theorem pushSample_fOut (smp : Bool) (s : State) : (pushSample smp s).fOut = s.fOut := rfl
@[simp] theorem pushSample_wsReq (smp : Bool) (s : State) : (pushSample smp s).wsReq = s.wsReq := rfl
@[simp] theorem pushSample_wsRsp (smp : Bool) (s : State) : (pushSample smp s).wsRsp = s.wsRsp := rfl
@[simp] theorem pushSample_wsHistory (smp : Bool) (s : State) : (pushSample smp s).wsHistory = s.wsHistory := rfl
@[simp] theorem pushSample_cmdOffer (smp : Bool) (s : State) : (pushSample smp s).cmdOffer = s.cmdOffer := rfl
@[simp] theorem pushSample_popped (smp : Bool) (s : State) : (pushSample smp s).popped = s.popped := rfl
@[simp] theorem pushSample_statusReads (smp : Bool) (s : State) : (pushSample smp s).statusReads = s.statusReads := rfl
@[simp] theorem pushSample_commandsEnded (smp : Bool) (s : State) : (pushSample smp s).commandsEnded = s.commandsEnded := rfl
@[simp] theorem pushSample_agenda (smp : Bool) (s : State) : (pushSample smp s).agenda = s.agenda := rfl
@[simp] theorem pushSample_turns (smp : Bool) (s : State) : (pushSample smp s).turns = s.turns := rfl
@[simp] theorem pushSample_draws (smp : Bool) (s : State) : (pushSample smp s).draws = s.draws := rfl

/-! ### pushFlag -/

@[simp] theorem pushFlag_busy (f : Bool) (s : State) : (pushFlag f s).busy = s.busy := rfl
@[simp] theorem pushFlag_done (f : Bool) (s : State) : (pushFlag f s).done = s.done := rfl
@[simp] theorem pushFlag_fault (f : Bool) (s : State) : (pushFlag f s).fault = s.fault := rfl
@[simp] theorem pushFlag_faultCause (f : Bool) (s : State) : (pushFlag f s).faultCause = s.faultCause := rfl
@[simp] theorem pushFlag_faultInfo (f : Bool) (s : State) : (pushFlag f s).faultInfo = s.faultInfo := rfl
@[simp] theorem pushFlag_evalValid (f : Bool) (s : State) : (pushFlag f s).evalValid = s.evalValid := rfl
@[simp] theorem pushFlag_evalFlag (f : Bool) (s : State) : (pushFlag f s).evalFlag = s.evalFlag := rfl
@[simp] theorem pushFlag_frameW (f : Bool) (s : State) : (pushFlag f s).frameW = s.frameW := rfl
@[simp] theorem pushFlag_frameH (f : Bool) (s : State) : (pushFlag f s).frameH = s.frameH := rfl
@[simp] theorem pushFlag_pixCount (f : Bool) (s : State) : (pushFlag f s).pixCount = s.pixCount := rfl
@[simp] theorem pushFlag_sIn (f : Bool) (s : State) : (pushFlag f s).sIn = s.sIn := rfl
@[simp] theorem pushFlag_fOut (f : Bool) (s : State) : (pushFlag f s).fOut = s.fOut ++ [f] := rfl
@[simp] theorem pushFlag_wsReq (f : Bool) (s : State) : (pushFlag f s).wsReq = s.wsReq := rfl
@[simp] theorem pushFlag_wsRsp (f : Bool) (s : State) : (pushFlag f s).wsRsp = s.wsRsp := rfl
@[simp] theorem pushFlag_wsHistory (f : Bool) (s : State) : (pushFlag f s).wsHistory = s.wsHistory := rfl
@[simp] theorem pushFlag_cmdOffer (f : Bool) (s : State) : (pushFlag f s).cmdOffer = s.cmdOffer := rfl
@[simp] theorem pushFlag_popped (f : Bool) (s : State) : (pushFlag f s).popped = s.popped := rfl
@[simp] theorem pushFlag_statusReads (f : Bool) (s : State) : (pushFlag f s).statusReads = s.statusReads := rfl
@[simp] theorem pushFlag_commandsEnded (f : Bool) (s : State) : (pushFlag f s).commandsEnded = s.commandsEnded := rfl
@[simp] theorem pushFlag_agenda (f : Bool) (s : State) : (pushFlag f s).agenda = s.agenda := rfl
@[simp] theorem pushFlag_turns (f : Bool) (s : State) : (pushFlag f s).turns = s.turns := rfl
@[simp] theorem pushFlag_draws (f : Bool) (s : State) : (pushFlag f s).draws = s.draws := rfl

/-! ### completeFrame -/

@[simp] theorem completeFrame_busy (s : State) : (completeFrame s).busy = false := rfl
@[simp] theorem completeFrame_done (s : State) : (completeFrame s).done = true := rfl
@[simp] theorem completeFrame_fault (s : State) : (completeFrame s).fault = s.fault := rfl
@[simp] theorem completeFrame_faultCause (s : State) : (completeFrame s).faultCause = s.faultCause := rfl
@[simp] theorem completeFrame_faultInfo (s : State) : (completeFrame s).faultInfo = s.faultInfo := rfl
@[simp] theorem completeFrame_evalValid (s : State) : (completeFrame s).evalValid = s.evalValid := rfl
@[simp] theorem completeFrame_evalFlag (s : State) : (completeFrame s).evalFlag = s.evalFlag := rfl
@[simp] theorem completeFrame_frameW (s : State) : (completeFrame s).frameW = s.frameW := rfl
@[simp] theorem completeFrame_frameH (s : State) : (completeFrame s).frameH = s.frameH := rfl
@[simp] theorem completeFrame_pixCount (s : State) : (completeFrame s).pixCount = s.pixCount := rfl
@[simp] theorem completeFrame_sIn (s : State) : (completeFrame s).sIn = s.sIn := rfl
@[simp] theorem completeFrame_fOut (s : State) : (completeFrame s).fOut = s.fOut := rfl
@[simp] theorem completeFrame_wsReq (s : State) : (completeFrame s).wsReq = s.wsReq := rfl
@[simp] theorem completeFrame_wsRsp (s : State) : (completeFrame s).wsRsp = s.wsRsp := rfl
@[simp] theorem completeFrame_wsHistory (s : State) : (completeFrame s).wsHistory = s.wsHistory := rfl
@[simp] theorem completeFrame_cmdOffer (s : State) : (completeFrame s).cmdOffer = s.cmdOffer := rfl
@[simp] theorem completeFrame_popped (s : State) : (completeFrame s).popped = s.popped := rfl
@[simp] theorem completeFrame_statusReads (s : State) : (completeFrame s).statusReads = s.statusReads := rfl
@[simp] theorem completeFrame_commandsEnded (s : State) : (completeFrame s).commandsEnded = s.commandsEnded := rfl
@[simp] theorem completeFrame_agenda (s : State) : (completeFrame s).agenda = s.agenda := rfl
@[simp] theorem completeFrame_turns (s : State) : (completeFrame s).turns = s.turns := rfl
@[simp] theorem completeFrame_draws (s : State) : (completeFrame s).draws = s.draws := rfl

/-! ### readStatus -/

@[simp] theorem readStatus_busy (n : Fin 4) (s : State) : (readStatus n s).busy = s.busy := rfl
@[simp] theorem readStatus_done (n : Fin 4) (s : State) : (readStatus n s).done = s.done := rfl
@[simp] theorem readStatus_fault (n : Fin 4) (s : State) : (readStatus n s).fault = s.fault := rfl
@[simp] theorem readStatus_faultCause (n : Fin 4) (s : State) : (readStatus n s).faultCause = s.faultCause := rfl
@[simp] theorem readStatus_faultInfo (n : Fin 4) (s : State) : (readStatus n s).faultInfo = s.faultInfo := rfl
@[simp] theorem readStatus_evalValid (n : Fin 4) (s : State) : (readStatus n s).evalValid = s.evalValid := rfl
@[simp] theorem readStatus_evalFlag (n : Fin 4) (s : State) : (readStatus n s).evalFlag = s.evalFlag := rfl
@[simp] theorem readStatus_frameW (n : Fin 4) (s : State) : (readStatus n s).frameW = s.frameW := rfl
@[simp] theorem readStatus_frameH (n : Fin 4) (s : State) : (readStatus n s).frameH = s.frameH := rfl
@[simp] theorem readStatus_pixCount (n : Fin 4) (s : State) : (readStatus n s).pixCount = s.pixCount := rfl
@[simp] theorem readStatus_sIn (n : Fin 4) (s : State) : (readStatus n s).sIn = s.sIn := rfl
@[simp] theorem readStatus_fOut (n : Fin 4) (s : State) : (readStatus n s).fOut = s.fOut := rfl
@[simp] theorem readStatus_wsReq (n : Fin 4) (s : State) : (readStatus n s).wsReq = s.wsReq := rfl
@[simp] theorem readStatus_wsRsp (n : Fin 4) (s : State) : (readStatus n s).wsRsp = s.wsRsp := rfl
@[simp] theorem readStatus_wsHistory (n : Fin 4) (s : State) : (readStatus n s).wsHistory = s.wsHistory := rfl
@[simp] theorem readStatus_cmdOffer (n : Fin 4) (s : State) : (readStatus n s).cmdOffer = s.cmdOffer := rfl
@[simp] theorem readStatus_popped (n : Fin 4) (s : State) : (readStatus n s).popped = s.popped := rfl
@[simp] theorem readStatus_statusReads (n : Fin 4) (s : State) : (readStatus n s).statusReads = s.statusReads ++ [statusBundle s n] := rfl
@[simp] theorem readStatus_commandsEnded (n : Fin 4) (s : State) : (readStatus n s).commandsEnded = s.commandsEnded := rfl
@[simp] theorem readStatus_agenda (n : Fin 4) (s : State) : (readStatus n s).agenda = s.agenda := rfl
@[simp] theorem readStatus_turns (n : Fin 4) (s : State) : (readStatus n s).turns = s.turns := rfl
@[simp] theorem readStatus_draws (n : Fin 4) (s : State) : (readStatus n s).draws = s.draws := rfl

/-! ### resetBlock -/

@[simp] theorem resetBlock_busy (s : State) : (resetBlock s).busy = false := rfl
@[simp] theorem resetBlock_done (s : State) : (resetBlock s).done = false := rfl
@[simp] theorem resetBlock_fault (s : State) : (resetBlock s).fault = false := rfl
@[simp] theorem resetBlock_faultCause (s : State) : (resetBlock s).faultCause = .noFault := rfl
@[simp] theorem resetBlock_faultInfo (s : State) : (resetBlock s).faultInfo = 0#32 := rfl
@[simp] theorem resetBlock_evalValid (s : State) : (resetBlock s).evalValid = false := rfl
@[simp] theorem resetBlock_evalFlag (s : State) : (resetBlock s).evalFlag = false := rfl
@[simp] theorem resetBlock_frameW (s : State) : (resetBlock s).frameW = 0#14 := rfl
@[simp] theorem resetBlock_frameH (s : State) : (resetBlock s).frameH = 0#14 := rfl
@[simp] theorem resetBlock_pixCount (s : State) : (resetBlock s).pixCount = 0#28 := rfl
@[simp] theorem resetBlock_sIn (s : State) : (resetBlock s).sIn = [] := rfl
@[simp] theorem resetBlock_fOut (s : State) : (resetBlock s).fOut = [] := rfl
@[simp] theorem resetBlock_wsReq (s : State) : (resetBlock s).wsReq = none := rfl
@[simp] theorem resetBlock_wsRsp (s : State) : (resetBlock s).wsRsp = none := rfl
@[simp] theorem resetBlock_wsHistory (s : State) : (resetBlock s).wsHistory = [] := rfl
@[simp] theorem resetBlock_cmdOffer (s : State) : (resetBlock s).cmdOffer = none := rfl
@[simp] theorem resetBlock_popped (s : State) : (resetBlock s).popped = [] := rfl
@[simp] theorem resetBlock_statusReads (s : State) : (resetBlock s).statusReads = [] := rfl
@[simp] theorem resetBlock_commandsEnded (s : State) : (resetBlock s).commandsEnded = false := rfl
@[simp] theorem resetBlock_agenda (s : State) : (resetBlock s).agenda = s.agenda := rfl
@[simp] theorem resetBlock_turns (s : State) : (resetBlock s).turns = s.turns := rfl
@[simp] theorem resetBlock_draws (s : State) : (resetBlock s).draws = s.draws := rfl

/-! ### The state after reset -/

@[simp] theorem reset_busy : State.reset.busy = false := rfl
@[simp] theorem reset_done : State.reset.done = false := rfl
@[simp] theorem reset_fault : State.reset.fault = false := rfl
@[simp] theorem reset_faultCause : State.reset.faultCause = .noFault := rfl
@[simp] theorem reset_faultInfo : State.reset.faultInfo = 0#32 := rfl
@[simp] theorem reset_evalValid : State.reset.evalValid = false := rfl
@[simp] theorem reset_evalFlag : State.reset.evalFlag = false := rfl
@[simp] theorem reset_frameW : State.reset.frameW = 0#14 := rfl
@[simp] theorem reset_frameH : State.reset.frameH = 0#14 := rfl
@[simp] theorem reset_pixCount : State.reset.pixCount = 0#28 := rfl
@[simp] theorem reset_sIn : State.reset.sIn = [] := rfl
@[simp] theorem reset_fOut : State.reset.fOut = [] := rfl
@[simp] theorem reset_wsReq : State.reset.wsReq = none := rfl
@[simp] theorem reset_wsRsp : State.reset.wsRsp = none := rfl
@[simp] theorem reset_wsHistory : State.reset.wsHistory = [] := rfl
@[simp] theorem reset_cmdOffer : State.reset.cmdOffer = none := rfl
@[simp] theorem reset_popped : State.reset.popped = [] := rfl
@[simp] theorem reset_statusReads : State.reset.statusReads = [] := rfl
@[simp] theorem reset_commandsEnded : State.reset.commandsEnded = false := rfl
@[simp] theorem reset_agenda : State.reset.agenda = [] := rfl
@[simp] theorem reset_turns : State.reset.turns = 0 := rfl
@[simp] theorem reset_draws : State.reset.draws = 0 := rfl

end Sys2Proof.Machine
end

