-- ==== Sys2Proof/Laws/Ops.lean ====
section
/-!
SUPPORT. What each shared operation can do, once: holding, the command step, the command port, the streams, the driver's
phases and the choice of the next turn. Callers cite these and do not unfold the operation.
-/

namespace Sys2Proof.Machine

/-! ### Holding and the command step -/

@[simp] theorem transact_true (t s : State) : transact true t s = .next t := rfl

@[simp] theorem transact_false (t s : State) : transact false t s = .next s := rfl

/-- A transaction answers its effect when enabled and the same state when not. -/
theorem transact_cases {en : Bool} {t s u : State} (h : transact en t s = .next u) :
    (en = true ∧ u = t) ∨ (en = false ∧ u = s) := by
  cases en
  · exact .inr ⟨rfl, by simpa using h.symm⟩
  · exact .inl ⟨rfl, by simpa using h.symm⟩

theorem commandReady_iff (s : State) : commandReady s = true ↔ s.busy = false ∧ s.fault = false := by
  simp [commandReady]

/-- A command is accepted when the port is ready, and held with nothing changed when not. -/
theorem commandStep_cases {effect : State → State} {s u : State} (h : commandStep effect s = .next u) :
    (s.busy = false ∧ s.fault = false ∧ u = effect (takeOffer s)) ∨ (commandReady s = false ∧ u = s) := by
  rcases transact_cases h with ⟨hr, hu⟩ | ⟨hr, hu⟩
  · exact .inl ⟨((commandReady_iff s).1 hr).1, ((commandReady_iff s).1 hr).2, hu⟩
  · exact .inr ⟨hr, hu⟩

/-- FRAME_START, once accepted, faults on a zero dimension and starts the frame otherwise. -/
theorem frameStart_cases (h w : BitVec 14) (s : State) :
    ((h = 0#14 ∨ w = 0#14) ∧ frameStart h w s = raiseFault .frameZero (frameStartWord h w) s) ∨
    (h ≠ 0#14 ∧ w ≠ 0#14 ∧
      frameStart h w s = { s with frameW := w, frameH := h, pixCount := 0#28, done := false, busy := true }) := by
  by_cases hz : h = 0#14 ∨ w = 0#14
  · exact .inl ⟨hz, by simp [frameStart, hz]⟩
  · exact .inr ⟨fun hh => hz (.inl hh), fun hw => hz (.inr hw), by simp [frameStart, hz]⟩

theorem offsetOk_iff (cfg : Params) (r c : Nat) : offsetOk cfg r c = true ↔ r < cfg.winH ∧ c < cfg.winW := by
  simp [offsetOk]

/-- EVAL, once accepted, writes its flag when the offset is in the window and faults otherwise. -/
theorem evalCommand_cases (cfg : Params) (row col : BitVec 14) (win : Window) (s : State) :
    (row.toNat < cfg.winH ∧ col.toNat < cfg.winW ∧ evalCommand cfg row col win s =
      { s with evalFlag := evalWindow cfg win row.toNat col.toNat, evalValid := true }) ∨
    ((cfg.winH ≤ row.toNat ∨ cfg.winW ≤ col.toNat) ∧
      evalCommand cfg row col win s = raiseFault .evalOffset (evalWord row col) s) := by
  by_cases ho : offsetOk cfg row.toNat col.toNat = true
  · exact .inl ⟨((offsetOk_iff ..).1 ho).1, ((offsetOk_iff ..).1 ho).2, by simp [evalCommand, ho]⟩
  · refine .inr ⟨?_, by simp [evalCommand, ho]⟩
    rw [offsetOk_iff] at ho
    omega

/-! ### The command port -/

theorem presentOffer_empty {o : Offer} {s : State} (h : s.cmdOffer = none) (he : s.commandsEnded = false) :
    presentOffer o s = { s with cmdOffer := some o } := by
  simp [presentOffer, h, he]

theorem presentOffer_ended {o : Offer} {s : State} (he : s.commandsEnded = true) : presentOffer o s = s := by
  cases h : s.cmdOffer <;> simp [presentOffer, h, he]

theorem presentOffer_held {o o' : Offer} {s : State} (h : s.cmdOffer = some o') : presentOffer o s = s := by
  simp [presentOffer, h]

/-! ### Streams -/

theorem popFlag_cons {f : Bool} {rest : List Bool} {s : State} (h : s.fOut = f :: rest) :
    popFlag s = { s with fOut := rest, popped := s.popped ++ [f] } := by
  simp [popFlag, h]

theorem issuePixel_cons {smp : Bool} {rest : List Bool} {s : State} (h : s.sIn = smp :: rest) :
    issuePixel s = { s with sIn := rest, wsReq := some (nextRequest smp s) } := by
  simp [issuePixel, h]

/-! ### The driver and the window source -/

/-- ISSUE is enabled exactly when a frame runs without fault, the channel is empty and a sample waits. -/
theorem issueEnabled_iff (s : State) : issueEnabled s = true ↔
    s.busy = true ∧ s.fault = false ∧ s.wsReq = none ∧ s.wsRsp = none ∧ ∃ smp rest, s.sIn = smp :: rest := by
  cases hs : s.sIn <;> simp [issueEnabled, hs, and_assoc]

/-- COMPLETE is enabled exactly when a frame runs without fault, an answer waits and F_OUT has room. -/
theorem completeEnabled_iff (cfg : Params) (s : State) : completeEnabled cfg s = true ↔
    s.busy = true ∧ s.fault = false ∧ (∃ rsp, s.wsRsp = some rsp) ∧ s.fOut.length < cfg.outDepth := by
  cases hs : s.wsRsp <;> simp [completeEnabled, hs, and_assoc]

theorem answerEnabled_iff (s : State) : answerEnabled s = true ↔ ∃ q, s.wsReq = some q := by
  cases hs : s.wsReq <;> simp [answerEnabled, hs]

/-- Counting a pixel advances PIX_COUNT, and completes the frame on its last pixel only. -/
theorem countPixel_cases (s : State) :
    (s.pixCount.toNat + 1 = frameSize s ∧
      countPixel s = completeFrame { s with pixCount := s.pixCount + 1#28 }) ∨
    (s.pixCount.toNat + 1 ≠ frameSize s ∧ countPixel s = { s with pixCount := s.pixCount + 1#28 }) := by
  by_cases h : s.pixCount.toNat + 1 = frameSize s
  · exact .inl ⟨h, by simp [countPixel, h]⟩
  · exact .inr ⟨h, by simp [countPixel, h]⟩

/-- COMPLETE clears the answer, then pushes one flag and counts it, or faults on a bad offset. -/
theorem completePixel_cases {cfg : Params} {s : State} {rsp : WsResponse} (h : s.wsRsp = some rsp) :
    (rsp.startRow.toNat < cfg.winH ∧ rsp.startCol.toNat < cfg.winW ∧ completePixel cfg s =
      countPixel (pushFlag (evalWindow cfg rsp.win rsp.startRow.toNat rsp.startCol.toNat) { s with wsRsp := none })) ∨
    ((cfg.winH ≤ rsp.startRow.toNat ∨ cfg.winW ≤ rsp.startCol.toNat) ∧
      completePixel cfg s = raiseFault .srcOffset (rsp.startRow ++ rsp.startCol) { s with wsRsp := none }) := by
  by_cases ho : offsetOk cfg rsp.startRow.toNat rsp.startCol.toNat = true
  · exact .inl ⟨((offsetOk_iff ..).1 ho).1, ((offsetOk_iff ..).1 ho).2, by simp [completePixel, h, ho]⟩
  · refine .inr ⟨?_, by simp [completePixel, h, ho]⟩
    rw [offsetOk_iff] at ho
    omega

theorem answerWith_some {cfg : Params} {src : Nat → List WsRequest → WsRequest → WsAnswer} {s : State} {q : WsRequest}
    (h : s.wsReq = some q) : answerWith cfg src s =
      { s with
        wsReq := none
        wsRsp := some (decodeAnswer cfg (src s.draws s.wsHistory q))
        wsHistory := s.wsHistory ++ [q]
        draws := s.draws + 1 } := by
  simp [answerWith, h]

/-! ### The next turn -/

theorem nextTurn_cons {t : Turn} {rest : List Turn} {s : State} (h : s.agenda = t :: rest) :
    nextTurn s = (t, { s with agenda := rest }) := by
  simp [nextTurn, h]

theorem nextTurn_nil {s : State} (h : s.agenda = []) :
    nextTurn s = (Config.schedule s.turns, { s with turns := s.turns + 1 }) := by
  simp [nextTurn, h]

end Sys2Proof.Machine
end

