-- ==== Sys2Proof/Laws/PerInstr.lean ====
section
/-!
SUPPORT. Per transaction: the encoder agrees with the match and mask columns of spec/opcode_table.json.
-/

namespace Sys2Proof.Laws

/-- The mask column of a command's row. -/
def tableMask : Instr → Word
  | .frameStart _ _ => 0xF0000000#32
  | .eval _ _ _ => 0xF0000000#32
  | .reservedOp0 _ => 0xF0000000#32
  | .reservedOp3 _ => 0xF0000000#32
  | .reservedOp4To7 _ => 0xC0000000#32
  | .reservedOp8ToF _ => 0x80000000#32
  | .pixelIssue => 0#32
  | .pixelComplete => 0#32
  | .wsAnswer => 0#32
  | .push _ => 0#32
  | .pop => 0#32
  | .read _ => 0#32
  | .reset => 0#32

/-- The match column of a command's row. -/
def tableMatch : Instr → Word
  | .frameStart _ _ => 0x10000000#32
  | .eval _ _ _ => 0x20000000#32
  | .reservedOp0 _ => 0x00000000#32
  | .reservedOp3 _ => 0x30000000#32
  | .reservedOp4To7 _ => 0x40000000#32
  | .reservedOp8ToF _ => 0x80000000#32
  | .pixelIssue => 0#32
  | .pixelComplete => 0#32
  | .wsAnswer => 0#32
  | .push _ => 0#32
  | .pop => 0#32
  | .read _ => 0#32
  | .reset => 0#32

namespace MatchesTable

/-- The command word of the transaction, where it has one, carries its row's match under its row's mask. -/
def Statement (i : Instr) : Prop := ∀ w, commandWord i = some w → w &&& tableMask i = tableMatch i

theorem frameStart (h w : BitVec 14) : Statement (.frameStart h w) := by
  rintro _ ⟨⟩
  refine BitVec.eq_of_getLsbD_eq fun i hi => ?_
  simp only [frameStartWord, tableMask, tableMatch, BitVec.getLsbD_and, BitVec.getLsbD_append]
  interval_cases i <;> simp

theorem eval (row col : BitVec 14) (win : Window) : Statement (.eval row col win) := by
  rintro _ ⟨⟩
  refine BitVec.eq_of_getLsbD_eq fun i hi => ?_
  simp only [evalWord, tableMask, tableMatch, BitVec.getLsbD_and, BitVec.getLsbD_append]
  interval_cases i <;> simp

theorem reservedOp0 (x : BitVec 28) : Statement (.reservedOp0 x) := by
  rintro _ ⟨⟩
  refine BitVec.eq_of_getLsbD_eq fun i hi => ?_
  simp only [reservedOp0Word, tableMask, tableMatch, BitVec.getLsbD_and, BitVec.getLsbD_append]
  interval_cases i <;> simp

theorem reservedOp3 (x : BitVec 28) : Statement (.reservedOp3 x) := by
  rintro _ ⟨⟩
  refine BitVec.eq_of_getLsbD_eq fun i hi => ?_
  simp only [reservedOp3Word, tableMask, tableMatch, BitVec.getLsbD_and, BitVec.getLsbD_append]
  interval_cases i <;> simp

theorem reservedOp4To7 (x : BitVec 30) : Statement (.reservedOp4To7 x) := by
  rintro _ ⟨⟩
  refine BitVec.eq_of_getLsbD_eq fun i hi => ?_
  simp only [reservedOp4To7Word, tableMask, tableMatch, BitVec.getLsbD_and, BitVec.getLsbD_append]
  interval_cases i <;> simp

theorem reservedOp8ToF (x : BitVec 31) : Statement (.reservedOp8ToF x) := by
  rintro _ ⟨⟩
  refine BitVec.eq_of_getLsbD_eq fun i hi => ?_
  simp only [reservedOp8ToFWord, tableMask, tableMatch, BitVec.getLsbD_and, BitVec.getLsbD_append]
  interval_cases i <;> simp

theorem pixelIssue : Statement (.pixelIssue) := by
  rintro _ ⟨⟩

theorem pixelComplete : Statement (.pixelComplete) := by
  rintro _ ⟨⟩

theorem wsAnswer : Statement (.wsAnswer) := by
  rintro _ ⟨⟩

theorem push (smp : Bool) : Statement (.push smp) := by
  rintro _ ⟨⟩

theorem pop : Statement (.pop) := by
  rintro _ ⟨⟩

theorem read (n : Fin 4) : Statement (.read n) := by
  rintro _ ⟨⟩

theorem reset : Statement (.reset) := by
  rintro _ ⟨⟩

end MatchesTable

end Sys2Proof.Laws
end

