-- ==== Sys2Proof/Laws/Step.lean ====
section
/-!
SUPPORT. What a transaction and a step can do, once: every case with its guard. Invariants and whole-machine statements
follow from these by cases.
-/

namespace Sys2Proof.Machine

theorem fieldOp_reservedOp4To7Word_ne (x : BitVec 30) :
    fieldOp (reservedOp4To7Word x) ≠ 1#4 ∧ fieldOp (reservedOp4To7Word x) ≠ 2#4 := by
  have h := opHigh_of_fieldOp (reservedOp4To7Word x)
  rw [opHigh_reservedOp4To7Word] at h
  generalize fieldOp (reservedOp4To7Word x) = op at *
  revert op
  decide

theorem fieldOp_reservedOp8ToFWord_ne (x : BitVec 31) :
    fieldOp (reservedOp8ToFWord x) ≠ 1#4 ∧ fieldOp (reservedOp8ToFWord x) ≠ 2#4 := by
  have h := opTop_of_fieldOp (reservedOp8ToFWord x)
  rw [opHigh_reservedOp8ToFWord] at h
  generalize fieldOp (reservedOp8ToFWord x) = op at *
  revert op
  decide

/-- Every transaction takes its effect under its enabling condition, or holds. -/
theorem exec_cases {i : Instr} {s t : State} (h : exec i s = .next t) :
    (∃ height width, i = .frameStart height width ∧ s.busy = false ∧ s.fault = false ∧
      t = frameStart height width (takeOffer s)) ∨
    (∃ row col win, i = .eval row col win ∧ s.busy = false ∧ s.fault = false ∧
      t = evalCommand Config.params row col win (takeOffer s)) ∨
    (∃ cmd, commandWord i = some cmd ∧ fieldOp cmd ≠ 1#4 ∧ fieldOp cmd ≠ 2#4 ∧ s.busy = false ∧ s.fault = false ∧
      t = raiseFault .cmdReserved cmd (takeOffer s)) ∨
    (i = .pixelIssue ∧ issueEnabled s = true ∧ t = issuePixel s) ∨
    (i = .pixelComplete ∧ completeEnabled Config.params s = true ∧ t = completePixel Config.params s) ∨
    (i = .wsAnswer ∧ answerEnabled s = true ∧ t = answerWith Config.params Config.winSrc s) ∨
    (∃ smp, i = .push smp ∧ pushEnabled Config.params s = true ∧ t = pushSample smp s) ∨
    (i = .pop ∧ popEnabled s = true ∧ t = popFlag s) ∨
    (∃ n, i = .read n ∧ t = readStatus n s) ∨
    (i = .reset ∧ t = resetBlock s) ∨
    t = s := by
  cases i <;> simp only [exec] at h
  case frameStart => rcases commandStep_cases h with ⟨_, _, _⟩ | ⟨_, _⟩ <;> simp_all
  case eval => rcases commandStep_cases h with ⟨_, _, _⟩ | ⟨_, _⟩ <;> simp_all
  case reservedOp0 => rcases commandStep_cases h with ⟨_, _, _⟩ | ⟨_, _⟩ <;> simp_all [commandWord]
  case reservedOp3 => rcases commandStep_cases h with ⟨_, _, _⟩ | ⟨_, _⟩ <;> simp_all [commandWord]
  case reservedOp4To7 =>
    rcases commandStep_cases h with ⟨_, _, _⟩ | ⟨_, _⟩ <;> simp_all [commandWord, fieldOp_reservedOp4To7Word_ne]
  case reservedOp8ToF =>
    rcases commandStep_cases h with ⟨_, _, _⟩ | ⟨_, _⟩ <;> simp_all [commandWord, fieldOp_reservedOp8ToFWord_ne]
  all_goals rcases transact_cases h with ⟨_, _⟩ | ⟨_, _⟩ <;> simp_all

/-- Choosing a turn uses the agenda or the free schedule up, and nothing else. -/
theorem nextTurn_state (s : State) : ∃ rest n, (nextTurn s).2 = { s with agenda := rest, turns := n } := by
  cases h : s.agenda with
  | nil => exact ⟨[], s.turns + 1, by rw [nextTurn_nil h, ← h]⟩
  | cons t rest => exact ⟨rest, s.turns, by rw [nextTurn_cons h]⟩

/-- Before its transaction a turn can only put a fresh offer on an empty port or end the host's commands. -/
theorem turnState_cases (s : State) (t : Turn) :
    turnState s t = s ∨
    (∃ o, s.cmdOffer = none ∧ s.commandsEnded = false ∧ turnState s t = { s with cmdOffer := some o }) ∨
    turnState s t = endCommands s := by
  rcases t with a | _ | _
  · cases a
    case command o =>
      by_cases he : s.commandsEnded = true
      · exact .inl (presentOffer_ended he)
      · by_cases hp : s.cmdOffer = none
        · exact .inr (.inl ⟨o, hp, by simpa using he, presentOffer_empty hp (by simpa using he)⟩)
        · obtain ⟨o', ho'⟩ := Option.ne_none_iff_exists'.1 hp
          exact .inl (presentOffer_held ho')
    all_goals exact .inl rfl
  · exact .inl rfl
  · exact .inr (.inr rfl)

/-- A command is run only from an offer at the port. -/
theorem turnInstr_command {cfg : Params} {s : State} {t : Turn} {i : Instr} (h : turnInstr cfg s t = some i)
    (hc : commandWord i ≠ none) : (turnState s t).cmdOffer ≠ none := by
  intro hn
  rcases t with a | _ | _
  · cases a
    case command o => simp_all [turnInstr, turnState, portInstr]
    all_goals
      simp only [turnInstr, decode, Option.some.injEq] at h
      subst h
      exact hc rfl
  · simp_all [turnInstr, turnState, portInstr]
  · simp [turnInstr] at h

/-- A command word decodes to a command. -/
theorem decodeCommand_ne_reset (cmd : Word) (win : Window) : decodeCommand cmd win ≠ .reset := by
  unfold decodeCommand
  repeat' split
  all_goals simp

/-- RESET is run only in a turn that is RESET. -/
theorem turnInstr_reset {cfg : Params} {s : State} {t : Turn} (h : turnInstr cfg s t = some .reset) : t = .act .reset := by
  rcases t with a | _ | _
  · cases a <;> simp_all [turnInstr, portInstr, decode, decodeCommand_ne_reset]
  · simp_all [turnInstr, portInstr, decode, decodeCommand_ne_reset]
  · simp [turnInstr] at h

/-- A step runs the transaction of its turn in the turn's state, or has none and only leaves that state. -/
theorem step_cases {s t : State} (h : step s = .next t) :
    (∃ i, turnInstr Config.params (nextTurn s).2 (nextTurn s).1 = some i ∧
      exec i (turnState (nextTurn s).2 (nextTurn s).1) = .next t) ∨
    (turnInstr Config.params (nextTurn s).2 (nextTurn s).1 = none ∧
      t = turnState (nextTurn s).2 (nextTurn s).1) := by
  unfold step at h
  split at h
  · next i hi => exact .inl ⟨i, hi, h⟩
  · next hi => exact .inr ⟨hi, by simpa using h.symm⟩

end Sys2Proof.Machine
end

