-- ==== Sys2Proof/Laws/Window.lean ====
section
/-!
SUPPORT. Windows: what a decoded window's cells and shape are, and where wrapped coordinates lie.
-/

namespace Sys2Proof

/-- Inside the window, a window built cell by cell gives the cell it was built from. -/
theorem Window.cell_ofFn (cfg : Params) (f : Nat → Nat → Cell) {r c : Nat} (hr : r < cfg.winH) (hc : c < cfg.winW) :
    (Window.ofFn cfg f).cell r c = f r c := by
  simp [Window.cell, Window.ofFn, List.getD, hr, hc]

/-- A window built from cells of CELL_BITS bits has the shape of the configuration. -/
theorem Window.shaped_ofFn (cfg : Params) (f : Nat → Nat → Cell)
    (hf : ∀ r c, r < cfg.winH → c < cfg.winW → f r c < 2 ^ cfg.cellBits) : (Window.ofFn cfg f).shaped cfg = true := by
  simp only [Window.shaped, Window.rowCountOk, Window.rowLengthsOk, Window.cellsOk, Window.ofFn, List.length_map,
    List.length_range, beq_self_eq_true, Bool.true_and, Bool.and_eq_true, List.all_eq_true, List.mem_map,
    List.mem_range, decide_eq_true_eq]
  constructor
  · rintro row ⟨r, _, rfl⟩
    simp
  · rintro row ⟨r, hr, rfl⟩ v hv
    obtain ⟨c, hc, rfl⟩ := List.mem_map.1 hv
    exact hf r c hr (List.mem_range.1 hc)

/-- A field of the WINDOW format is CELL_BITS wide. -/
theorem windowField_lt (cfg : Params) (bits r c : Nat) : windowField cfg bits r c < 2 ^ cfg.cellBits :=
  Nat.mod_lt _ (Nat.two_pow_pos _)

/-- Every raw pattern decodes to a window of the configuration's shape. -/
theorem Window.shaped_ofBits (cfg : Params) (bits : Nat) : (Window.ofBits cfg bits).shaped cfg = true :=
  Window.shaped_ofFn cfg _ fun r c _ _ => windowField_lt cfg bits r c

/-- Inside the window, a decoded pattern's cell is its field of the pattern. -/
theorem Window.cell_ofBits (cfg : Params) (bits : Nat) {r c : Nat} (hr : r < cfg.winH) (hc : c < cfg.winW) :
    (Window.ofBits cfg bits).cell r c = windowField cfg bits r c :=
  Window.cell_ofFn cfg _ hr hc

namespace Machine

/-- Every decoded answer has a window of the configuration's shape. -/
theorem decodeAnswer_shaped (cfg : Params) (a : WsAnswer) : (decodeAnswer cfg a).win.shaped cfg = true :=
  Window.shaped_ofBits cfg a.winBits

end Machine

end Sys2Proof
end

