-- ==== Sys2Proof/Tests/Slice0.lean ====
section
/-!
SUPPORT. Tests of the model. Expected values are those of spec/95_test_vectors.md (its section is named) or are worked out
by hand from a rule; and, for every statement with hypotheses, a concrete state and operands that meet them.
-/

namespace Sys2Proof.Tests

open Sys2Proof.Machine

/-- The default configuration (R8, R9), its open coefficients those of a row of 95_test_vectors section 2.5. -/
def dflt : Params := Params.withDefaults 1 (-1000) (-1000) (-2000) (-1000) (-2000) 16 16

/-- The default configuration with another kernel centre, inner or outer coefficient (section 2.5). -/
def withKernel (kc ko k11 k00 k02 : Int) : Params :=
  { dflt with kernel := { kc := kc, ko := ko, k11 := k11, k00 := k00, k01 := k00, k02 := k02, k10 := k00, k20 := k02 } }

/-- An 8 x 8 window (section 4, E17). -/
def cfg8 : Params := { dflt with winH := 8, winW := 8 }

/-- A 5 x 6 window (section 4, E19). -/
def cfg56 : Params := { dflt with winW := 6 }

/-- Two-bit cells (section 4, E20). -/
def cfgCell2 : Params := { dflt with cellBits := 2 }

/-- The window of a raw pattern in the default configuration. -/
def win (bits : Nat) : Window := Window.ofBits dflt bits

/-- A running W x H frame at PIX_COUNT = p. -/
def running (w h p : Nat) : State :=
  { State.reset with busy := true, frameW := BitVec.ofNat 14 w, frameH := BitVec.ofNat 14 h, pixCount := BitVec.ofNat 28 p }

/-- The running frame with an answer waiting. -/
def answered (w h p bits r c : Nat) : State :=
  { running w h p with wsRsp := some ⟨win bits, BitVec.ofNat 16 r, BitVec.ofNat 16 c⟩ }

/-- The faulted state of a reserved word. -/
def faulted : State :=
  { State.reset with fault := true, faultCause := .cmdReserved, faultInfo := 0x30000000#32 }

/-! ### Well-formedness: one ill-formed term for each check -/

theorem test_wf_eval : (Instr.eval 0 0 (win 0x23880)).wellFormed dflt = true := by decide
theorem test_wf_row_count : (Instr.eval 0 0 ⟨[[0, 0, 0, 0, 0]]⟩).wellFormed dflt = false := by decide
theorem test_wf_row_length :
    (Instr.eval 0 0 ⟨[[0, 0, 0, 0], [0, 0, 0, 0], [0, 0, 0, 0], [0, 0, 0, 0], [0, 0, 0, 0]]⟩).wellFormed dflt = false := by
  decide
theorem test_wf_cell_width :
    (Instr.eval 0 0 ⟨[[2, 0, 0, 0, 0], [0, 0, 0, 0, 0], [0, 0, 0, 0, 0], [0, 0, 0, 0, 0], [0, 0, 0, 0, 0]]⟩).wellFormed dflt
      = false := by
  decide

/-! ### Configuration checks (section 2.5) -/

theorem test_cfg_default : dflt.refusedBy = [] := by decide
theorem test_cfg_center : (withKernel 5215 1512 1 (-1000) (-2000)).refusedBy = [.wfCenter] := by decide
theorem test_cfg_orth : (withKernel 5213 1510 1 (-1000) (-2000)).refusedBy = [.wfOrth] := by decide
theorem test_cfg_inner : (withKernel 5213 1512 0 (-1000) (-2000)).refusedBy = [.wfInnerPos] := by decide
theorem test_cfg_peak : (withKernel 5214 1512 5215 (-1000) (-2000)).refusedBy = [.wfPeak] := by decide
theorem test_cfg_outer : (withKernel 5213 1512 1 (-1000) 0).refusedBy = [.wfOuterNeg] := by decide
theorem test_cfg_overflow : (withKernel 5213 1512 1 (-2000) (-5000)).refusedBy = [.wfNoOverflow] := by decide
theorem test_cfg_positive_sum : (withKernel 5214 1513 5214 (-1000) (-2000)).kernel.posSum = 32122 := by decide
theorem test_cfg_undersized : { dflt with winH := 4 }.refusedBy = [.winHRange] := by decide

/-! ### Words written out bit by bit from the encodings (R69-R71; section 5) -/

theorem test_decode_frameStart :
    decodeCommand 0b00010000000000010000000000000011#32 (win 0) = .frameStart 4#14 3#14 := by decide
theorem test_decode_eval :
    decodeCommand 0b00100000000000001000000000000001#32 (win 0x23880) = .eval 2#14 1#14 (win 0x23880) := by decide
theorem test_decode_reservedOp0 :
    decodeCommand 0b00000000000000000000000000000101#32 (win 0) = .reservedOp0 5#28 := by decide
theorem test_decode_reservedOp3 :
    decodeCommand 0b00111000000000000000000000000101#32 (win 0) = .reservedOp3 0x8000005#28 := by decide
theorem test_decode_reservedOp4To7 :
    decodeCommand 0b01100000000000000000000000000111#32 (win 0) = .reservedOp4To7 0x20000007#30 := by decide
theorem test_decode_reservedOp8ToF :
    decodeCommand 0b11110000000000000000000000000001#32 (win 0) = .reservedOp8ToF 0x70000001#31 := by decide
theorem test_decode_others :
    [Action.issue, .complete, .answer, .push true, .pop, .read 3, .reset].map (decode dflt) =
      [.pixelIssue, .pixelComplete, .wsAnswer, .push true, .pop, .read 3, .reset] := by decide
theorem test_encode_frame64 : frameStartWord 64#14 64#14 = 0x10100040#32 := by decide
theorem test_encode_eval44 : encode dflt (.eval 4#14 4#14 (win 0x8E2)) = .command ⟨0x20010004#32, 0x8E2⟩ := by decide
theorem test_tableWord : decodeTableWord 32 0x10004001 = some (.frameStart 1#14 1#14) := by decide
theorem test_tableWord_other_width : decodeTableWord 8 1 = none := by decide

/-! ### Fixed point (sections 2.1 to 2.4) -/

theorem test_fx_real : fxReal 0x145D#16 = 5213 / 16384 ∧ fxReal 0x8000#16 = -2 := by
  norm_num [fxReal, sint16, BitVec.toInt, Rat.mkRat_eq_div]
theorem test_quant :
    quant 3182 10000 = 0x145D#16 ∧ quant 923 10000 = 0x05E8#16 ∧ thresh = 0x1F5C#16 ∧ quant (-3182) 10000 = 0xEBA2#16 := by
  decide
theorem test_fxAdd : fxAdd 0x2615#16 0x05E8#16 = 0x2BFD#16 ∧ fxAdd 0x8000#16 0xFFFF#16 = 0x7FFF#16 := by decide
theorem test_fxGe :
    fxGe 0x1F5C#16 thresh = true ∧ fxGe 0x1F5B#16 thresh = false ∧ fxGe 0x8000#16 thresh = false := by decide

/-! ### Toroidal addressing (section 3) -/

theorem test_wrap : kernelIndices.map (fun k => wrapCoord 8 5 k) = [5, 6, 7, 0, 1] := by decide
theorem test_wrap_largest : kernelIndices.map (fun k => wrapCoord 16384 16383 k) = [16383, 0, 1, 2, 3] := by decide

/-! ### The evaluator (section 4, by number) -/

theorem test_e1 : evalWindow dflt (win 0) 0 0 = false := by decide
theorem test_e2 : accumulator dflt (win 0x1000) 0 0 = 5213#16 ∧ evalWindow dflt (win 0x1000) 0 0 = false := by decide
theorem test_e3 : accumulator dflt (win 0x23880) 0 0 = 11261#16 ∧ evalWindow dflt (win 0x23880) 0 0 = true := by decide
theorem test_e4 : accumulator dflt (win 0x8E2) 4 4 = 11261#16 := by decide
theorem test_e5 : accumulator dflt (win 0x4) 4 0 = 1512#16 := by decide
theorem test_e6 : accumulator dflt (win 0x21080) 0 0 = 8237#16 ∧ evalWindow dflt (win 0x21080) 0 0 = true := by decide
theorem test_e7 : accumulator dflt (win 0x3000) 0 0 = 6725#16 ∧ evalWindow dflt (win 0x3000) 0 0 = false := by decide
theorem test_e8 : accumulator dflt (win 0x22880) 0 0 = 6048#16 := by decide
theorem test_e10 : evalWindow dflt (win 0x739C0) 0 0 = true := by decide
theorem test_e11 : sint16 (accumulator dflt (win 0x1000) 2 2) = -1000 := by decide
theorem test_e14 : sint16 (accumulator dflt (win 0x23880) 4 0) = 5213 + 1512 + 2 * 1 + -2000 := by decide
theorem test_e17 : accumulator cfg8 (Window.ofBits cfg8 0x0100000000000183) 6 6 = 11261#16 := by decide
theorem test_e18 : sint16 (accumulator cfg8 (Window.ofBits cfg8 0x0100000000000183) 0 0) = -3000 := by decide
theorem test_e19 : accumulator cfg56 (Window.ofBits cfg56 0x831800) 0 3 = 11261#16 := by decide
theorem test_e20 : accumulator cfgCell2 (Window.ofBits cfgCell2 0x40640C000) 0 0 = 11261#16 := by decide
theorem test_e21 : accumulator cfgCell2 (Window.ofBits cfgCell2 0x3000000) 0 0 = 5213#16 := by decide

/-! ### The window-source channel (section 6) -/

theorem test_issue_request : (issuePixel { running 4 4 10 with sIn := [true, false] }).wsReq = some ⟨10, 2, 2, true⟩ := by
  decide
theorem test_pack_request : packWsRequest ⟨10, 2, 2, true⟩ = 0x010008002000000A#57 := by decide
theorem test_pack_response : packWsResponse dflt ⟨win 0x8E2, 4, 4⟩ = 0x000008E200040004 := by decide
theorem test_complete_pushes : (completePixel dflt (answered 4 4 5 0x23880 0 0)).fOut = [true] := by decide
theorem test_complete_last :
    statusBundle (completePixel dflt (answered 1 1 0 0 0 0)) 0 = 0x00000002#32 ∧
      (completePixel dflt (answered 1 1 0 0 0 0)).pixCount = 1#28 := by decide
theorem test_complete_fault_row :
    (completePixel dflt (answered 3 1 1 0 5 0)).faultInfo = 0x00050000#32 ∧
      statusBundle (completePixel dflt (answered 3 1 1 0 5 0)) 0 = 0x00000405#32 := by decide
theorem test_complete_fault_col : (completePixel dflt (answered 3 1 1 0 0 5)).faultInfo = 0x00000005#32 := by decide
theorem test_answer_moves_request :
    (answerWith dflt (fun _ _ _ => ⟨0x23880, 0, 0⟩) { running 1 1 0 with wsReq := some ⟨0, 0, 0, true⟩ }).wsRsp =
      some ⟨win 0x23880, 0, 0⟩ := by decide

/-! ### Commands, host actions and status words (sections 5, 7 and 8) -/

theorem test_frame44 : frameDimWord (frameStart 4#14 4#14 State.reset) = 0x00010004#32 ∧
    statusBundle (frameStart 4#14 4#14 State.reset) 0 = 0x00000001#32 := by decide
theorem test_frame_zero_width : statusBundle (frameStart 4#14 0#14 State.reset) 0 = 0x00000204#32 ∧
    (frameStart 4#14 0#14 State.reset).faultInfo = 0x10010000#32 := by decide
theorem test_eval_flag : statusBundle (evalCommand dflt 4#14 4#14 (win 0x8E2) State.reset) 0 = 0x00000018#32 := by decide
theorem test_eval_offset : statusBundle (evalCommand dflt 5#14 0#14 (win 0) State.reset) 0 = 0x00000304#32 ∧
    (evalCommand dflt 5#14 0#14 (win 0) State.reset).faultInfo = 0x20014000#32 := by decide
theorem test_reserved : execReservedOp3 0#28 State.reset = .next faulted := rfl
theorem test_status_faulted : statusBundle faulted 0 = 0x00000104#32 ∧ statusBundle faulted 3 = 0x30000000#32 := by decide
theorem test_read_returns_status : execRead 3 faulted = .next { faulted with statusReads := [0x30000000#32] } := rfl
theorem test_pop_returns_head :
    execPop { State.reset with fOut := [true, false] } = .next { State.reset with fOut := [false], popped := [true] } := rfl
theorem test_push_while_faulted : execPush true faulted = .next { faulted with sIn := [true] } := rfl
theorem test_reset_clears : execReset { faulted with sIn := [true], fOut := [false] } = .next State.reset := rfl
theorem test_step_from_port :
    step (State.reset.withFetchWord 32 0x10004001) = .next { running 1 1 0 with sIn := [] } := rfl
theorem test_step_holds_offer :
    step { running 1 1 0 with agenda := [.act (.command ⟨0x10004001#32, 0⟩)] } =
      .next { running 1 1 0 with cmdOffer := some ⟨0x10004001#32, 0⟩ } := rfl

/-! ### The assembler (R77 to R80; section 5) -/

theorem test_asm_frame :
    assembleLine dflt "frame 3, 1 ; W=3".toList = some [.act (.command ⟨0x10004003#32, 0⟩)] := by decide
theorem test_asm_frame_zero : assembleLine dflt "frame 0, 4".toList = none := by decide
theorem test_asm_eval :
    assembleLine dflt "eval 0, 0, 00000/00100/01110/00100/00000".toList =
      some [.act (.command ⟨0x20000000#32, 0x23880⟩)] := by decide
theorem test_asm_raw_window :
    assembleLine dflt "eval 4, 4, 0x8E2w".toList = some [.act (.command ⟨0x20010004#32, 0x8E2⟩)] := by decide
theorem test_asm_wrong_shape : assembleLine dflt "eval 0, 0, 0000/0000".toList = none := by decide
theorem test_asm_word :
    assembleLine dflt ".word 0xF0000000".toList = some [.act (.command ⟨0xF0000000#32, 0⟩)] := by decide
theorem test_asm_samples_blanks :
    assembleLine dflt "samples 1\t0  \t 1 ; tabs and spaces".toList =
      some [.act (.push true), .act (.push false), .act (.push true)] := by decide
theorem test_asm_run :
    assembleProgram dflt "run 2, 1, 1 0\nwait_idle\ndrain 2\nread 2".toList =
      some [.act (.command ⟨0x10004002#32, 0⟩), .act (.push true), .act (.push false), .waitIdle, .act .pop, .act .pop,
        .act (.read 2)] := by decide

/-! ### The end of a run (R125) -/

theorem test_end_of_commands :
    State.reset.finished = false ∧
      step { State.reset with agenda := [.endCommands] } = .next { State.reset with commandsEnded := true } ∧
      { State.reset with commandsEnded := true }.finished = true := ⟨rfl, rfl, rfl⟩
theorem test_faulted_never_finished : { faulted with commandsEnded := true }.finished = false := rfl

/-! ### Witnesses: a state and operands that meet each statement's hypotheses -/

/-- Any state makes an unguarded statement's clauses apply; the idle launch state meets "not busy, not faulted". -/
theorem witness_FrameStartMeaning :
    (State.reset.busy = false ∧ State.reset.fault = false ∧ 4#14 ≠ 0#14) ∧ (running 1 1 0).busy = true ∧
      (0#14 = 0#14 ∨ 4#14 = 0#14) := by decide

theorem winH_bounds : 5 ≤ Config.params.winH ∧ Config.params.winH ≤ 16384 := by
  have : Config.params.winH = Config.freeWinH % 16380 + 5 := rfl
  omega
theorem winW_bounds : 5 ≤ Config.params.winW ∧ Config.params.winW ≤ 16384 := by
  have : Config.params.winW = Config.freeWinW % 16380 + 5 := rfl
  omega

/-- EVAL's accepting and holding states; its row WIN_H - 1 and column WIN_W - 1 are inside the window, and row WIN_H is
outside wherever 14 bits can say it (R9 admits WIN_H = 16384, where they cannot). -/
theorem witness_EvalMeaning :
    (State.reset.busy = false ∧ State.reset.fault = false ∧ faulted.fault = true) ∧
    ((BitVec.ofNat 14 (Config.params.winH - 1)).toNat < Config.params.winH ∧
      (BitVec.ofNat 14 (Config.params.winW - 1)).toNat < Config.params.winW) ∧
    (Config.params.winH < 16384 → ¬(BitVec.ofNat 14 Config.params.winH).toNat < Config.params.winH) := by
  have := winH_bounds
  have := winW_bounds
  refine ⟨by decide, ?_, ?_⟩ <;> simp only [BitVec.toNat_ofNat] <;> omega

/-- The same boundary at the default sizes: the last row and column are inside, and one beyond is outside. -/
theorem witness_EvalMeaning_default :
    ((4#14).toNat < dflt.winH ∧ (4#14).toNat < dflt.winW) ∧ ¬(5#14).toNat < dflt.winH ∧ ¬(5#14).toNat < dflt.winW := by
  decide
theorem witness_EvalCompletesInsideEveryWindow :
    State.reset.busy = false ∧ State.reset.fault = false ∧ (4#14).toNat < 5 ∧ (0#14).toNat < 5 := by decide
theorem witness_ReservedCommandsFault :
    State.reset.busy = false ∧ State.reset.fault = false ∧ fieldOp 0xF0000000#32 ≠ 1#4 ∧ fieldOp 0xF0000000#32 ≠ 2#4 := by
  decide
theorem witness_PixelIssueMeaning :
    let s := { running 4 4 5 with sIn := [true] }
    (s.busy = true ∧ s.fault = false ∧ s.wsReq = none ∧ s.wsRsp = none ∧ s.sIn = [true]) ∧ (running 4 4 5).sIn = [] := by
  decide

/-- COMPLETE's enabled cases at offsets 0, WIN_H - 1 and WIN_W - 1 inside the window and WIN_H outside it, and its holds:
no answer, and no room. -/
theorem witness_PixelCompleteMeaning :
    ((answered 1 1 0 0 0 0).busy = true ∧ (answered 1 1 0 0 0 0).fault = false ∧
      (answered 1 1 0 0 0 0).wsRsp = some ⟨win 0, 0#16, 0#16⟩ ∧
      (answered 1 1 0 0 0 0).fOut.length < Config.params.outDepth ∧
      (0#16).toNat < Config.params.winH ∧ (0#16).toNat < Config.params.winW) ∧
    ((BitVec.ofNat 16 (Config.params.winH - 1)).toNat < Config.params.winH ∧
      (BitVec.ofNat 16 (Config.params.winW - 1)).toNat < Config.params.winW ∧
      Config.params.winH ≤ (BitVec.ofNat 16 Config.params.winH).toNat) ∧
    (running 1 1 0).wsRsp = none ∧
    Config.params.outDepth ≤ { answered 1 1 0 0 0 0 with fOut := List.replicate Config.params.outDepth true }.fOut.length := by
  refine ⟨⟨rfl, rfl, rfl, Nat.succ_pos _, Nat.succ_pos _, Nat.succ_pos _⟩, ?_, rfl, by simp⟩
  have := winH_bounds
  have := winW_bounds
  simp only [BitVec.toNat_ofNat]
  omega
theorem witness_PixelCompleteMeaning_example :
    (answered 4 4 5 0x23880 0 0).wsRsp = some ⟨Window.ofBits dflt 0x23880, 0#16, 0#16⟩ := by decide
theorem witness_WsAnswerMeaning :
    { running 1 1 0 with wsReq := some ⟨0, 0, 0, true⟩ }.wsReq = some ⟨0, 0, 0, true⟩ ∧ (running 1 1 0).wsReq = none := by
  decide

/-- The empty stream has room in every configuration; one as long as the capacity has none. -/
theorem witness_PushMeaning :
    State.reset.sIn.length < Config.params.inDepth ∧
      Config.params.inDepth ≤ { State.reset with sIn := List.replicate Config.params.inDepth true }.sIn.length :=
  ⟨Nat.succ_pos _, by simp⟩
theorem witness_PopMeaning :
    { State.reset with fOut := [true, false] }.fOut = true :: [false] ∧ State.reset.fOut = [] := by decide
theorem witness_DecodeFollowsOpcode :
    fieldOp 0x10010004#32 = 1#4 ∧ fieldOp 0x20000000#32 = 2#4 ∧ fieldOp 0x00000000#32 ≠ 1#4 ∧
      fieldOp 0x00000000#32 ≠ 2#4 := by decide
theorem witness_EncodeThenDecode : (Instr.eval 4 4 (win 0x1FFFFFF)).wellFormed dflt = true := by decide
theorem witness_WindowFormatIsExact :
    4 < dflt.winH ∧ 4 < dflt.winW ∧ 0x1FFFFFF < 2 ^ (dflt.winH * dflt.winW * dflt.cellBits) := by decide
theorem witness_WsChannelFormatsRoundTrip : (win 0x8E2).shaped dflt = true := by decide
theorem witness_AssemblerMatchesEncoder :
    (1 ≤ 16383 ∧ 16383 ≤ 16383 ∧ 1 ≤ 1) ∧ (0 = 0 ∨ 16383 < 16384) ∧ (0 ≤ 16383) ∧ 16383 < 16384 := by decide

/-- The premise of every statement over admissible configurations. -/
theorem witness_admissible :
    dflt.admissible = true ∧ cfg8.admissible = true ∧ cfg56.admissible = true ∧ cfgCell2.admissible = true := by decide
theorem witness_WrapIsOneSubtraction : dflt.admissible = true ∧ 4 < dflt.winH ∧ 4 < dflt.winW := by decide
theorem witness_EachCellReadAtMostOnce :
    dflt.admissible = true ∧ dflt.winH = 5 ∧ dflt.winW = 5 ∧ wrapCoord dflt.winH 4 (1 : KIdx) = 0 := by decide
theorem witness_FxGeSignedInclusive : 0x1F5D#16 ≠ 0x8000#16 ∧ sint16 0xFFFF#16 < 0 := by decide
theorem witness_PositiveSumAlwaysFits :
    Check.passes dflt .wfCenter = true ∧ Check.passes dflt .wfOrth = true ∧ Check.passes dflt .wfPeak = true := by decide
theorem witness_EvalNeverOverflows : dflt.admissible = true ∧ kernelPositions.Nodup := by decide
theorem witness_EvalClosedForm : dflt.admissible = true ∧ 4 < dflt.winH ∧ 0 < dflt.winW := by decide
theorem witness_EvalOrderIndependent : kernelPositions.reverse.Perm kernelPositions := List.reverse_perm _
theorem witness_EmptyPatchNeverTriggers : LitExactly dflt (win 0) 4 4 [] := by
  unfold LitExactly
  decide
theorem witness_CentreOnlyNeverTriggers : dflt.admissible = true ∧ LitExactly dflt (win 0x1000) 0 0 [(2, 2)] := by
  unfold LitExactly
  decide
theorem witness_CentrePlusNeighboursTriggers :
    dflt.admissible = true ∧ LitExactly dflt (win 0x8E2) 4 4 plusPositions ∧ dflt.kernel.kc = 5213 ∧
      dflt.kernel.ko = 1512 := by
  unfold LitExactly
  decide
theorem witness_WraparoundReadsFirstRow :
    dflt.admissible = true ∧ 4 < dflt.winH ∧ dflt.winH ≤ 4 + (1 : KIdx).val ∧
      (∀ r' < dflt.winH, ∀ c' < dflt.winW, ((win 0x4).cell r' c' ≠ 0 ↔ r' = 0 ∧ c' = 2)) := by decide
theorem witness_OneLitCellNeverTriggers : dflt.admissible = true ∧ LitExactly dflt (win 0x1000) 4 4 [(3, 3)] := by
  unfold LitExactly
  decide
theorem witness_AllLitStaysSymbolic : dflt.admissible = true ∧ ∀ i j, litAt dflt (win 0x1FFFFFF) 3 1 i j = true := by
  decide

/-- One agenda for each clause: a driver turn, a fresh offer before and after the end of the host's commands, a held offer,
an empty port, the end of the commands, and no turn chosen. -/
theorem witness_StepRunsTheTurn :
    ((∀ o, Action.issue ≠ .command o) ∧ { State.reset with agenda := [.act .issue] }.agenda = [.act .issue]) ∧
    (State.reset.cmdOffer = none ∧ State.reset.commandsEnded = false) ∧
    { State.reset with commandsEnded := true }.commandsEnded = true ∧
    { State.reset with cmdOffer := some ⟨0#32, 0⟩ }.cmdOffer = some ⟨0#32, 0⟩ ∧
    { State.reset with agenda := [.endCommands] }.agenda = [.endCommands] ∧ State.reset.agenda = [] := by
  refine ⟨⟨fun o => ?_, rfl⟩, ⟨rfl, rfl⟩, rfl, rfl, rfl, rfl⟩
  simp
theorem witness_FetchWordRunsNext : decodeTableWord 32 0x00000000 = some (.reservedOp0 0#28) := by decide

/-- A port that is not ready and one that is, and a held word for each effect but the out-of-window EVAL's, which
`witness_EvalMeaning` shows. -/
theorem witness_OfferHeldUntilReady :
    ((running 1 1 0).cmdOffer = none ∧ (running 1 1 0).commandsEnded = false ∧ (running 1 1 0).busy = true) ∧
    ({ State.reset with cmdOffer := some ⟨0x10010004#32, 0⟩, agenda := [.commandStep] }.cmdOffer =
      some ⟨0x10010004#32, 0⟩ ∧ State.reset.busy = false ∧ State.reset.fault = false) ∧
    (fieldOp 0x10010004#32 = 1#4 ∧ fieldA 0x10010004#32 ≠ 0#14 ∧ fieldB 0x10010004#32 ≠ 0#14) ∧
    (fieldOp 0x10010000#32 = 1#4 ∧ fieldB 0x10010000#32 = 0#14) ∧
    (fieldOp 0x20000000#32 = 2#4 ∧ (fieldA 0x20000000#32).toNat < Config.params.winH ∧
      (fieldB 0x20000000#32).toNat < Config.params.winW) ∧
    fieldOp 0x30000000#32 ≠ 1#4 ∧ fieldOp 0x30000000#32 ≠ 2#4 :=
  ⟨by decide, by decide, by decide, by decide, ⟨by decide, Nat.succ_pos _, Nat.succ_pos _⟩, by decide, by decide⟩
theorem witness_DisabledTransactionsHold : instrEnabled Config.params State.reset .pixelIssue = false := rfl
theorem witness_BusyChangesOnlyByItsEvents :
    exec (.frameStart 1#14 1#14) State.reset = .next (running 1 1 0) ∧ (running 1 1 0).busy ≠ State.reset.busy :=
  ⟨rfl, by decide⟩
theorem witness_DoneChangesOnlyByItsEvents :
    exec .reset { State.reset with done := true } = .next State.reset ∧
      State.reset.done ≠ { State.reset with done := true }.done := ⟨rfl, by decide⟩
theorem witness_FaultRecordIsSticky :
    exec (.reservedOp3 0#28) State.reset = .next faulted ∧ State.reset.fault = false ∧ faulted.fault = true ∧
      exec (.read 0) faulted = .next { faulted with statusReads := [0x00000104#32] } ∧ Instr.read 0 ≠ .reset :=
  ⟨rfl, rfl, rfl, rfl, by decide⟩

/-- A fault of each other cause; for EVAL and COMPLETE the offset's condition is shown by the witnesses of their meanings. -/
theorem witness_FaultRecordIsSticky_frameZero :
    exec (.frameStart 4#14 0#14) State.reset =
      .next { State.reset with fault := true, faultCause := .frameZero, faultInfo := 0x10010000#32 } := rfl
theorem witness_FaultsArePrecise :
    exec (.reservedOp3 0#28) State.reset = .next faulted ∧ State.reset.fault = false ∧ faulted.fault = true :=
  ⟨rfl, rfl, rfl⟩
theorem witness_EvalRegistersOnlyByEval :
    exec .reset { State.reset with evalValid := true } = .next State.reset ∧
      State.reset.evalValid ≠ { State.reset with evalValid := true }.evalValid := ⟨rfl, by decide⟩
theorem witness_FrameRegistersChange :
    exec (.frameStart 1#14 1#14) State.reset = .next (running 1 1 0) ∧ (running 1 1 0).frameW ≠ State.reset.frameW :=
  ⟨rfl, by decide⟩
theorem witness_StreamsAreFifos :
    exec .pop { State.reset with fOut := [true] } = .next { State.reset with popped := [true] } := rfl
theorem witness_WsChannelWriters :
    exec .pixelIssue { running 1 1 0 with sIn := [true] } =
      .next { running 1 1 0 with wsReq := some ⟨0, 0, 0, true⟩ } ∧
      { running 1 1 0 with wsReq := some ⟨0, 0, 0, true⟩ }.wsReq ≠ (running 1 1 0).wsReq := ⟨rfl, by decide⟩

theorem witness_StepKeepsInv :
    State.reset.Inv Config.params ∧ step { State.reset with agenda := [.act .pop] } = .next State.reset := by
  refine ⟨?_, rfl⟩
  constructor <;> simp [FaultRecordOk, frameSize, pendingAnswers, lostPixels]

/-- A reserved word's fault, with a read as the next turn. -/
theorem witness_FaultedStateIsQuiescent :
    let s := { faulted with agenda := [.act (.read 0)] }
    s.Inv Config.params ∧ s.fault = true ∧
      step s = .next { faulted with statusReads := [0x00000104#32] } ∧ (nextTurn s).1 ≠ .act .reset := by
  refine ⟨?_, rfl, rfl, by decide⟩
  constructor <;> simp [faulted, FaultRecordOk, frameSize, pendingAnswers, lostPixels]
  decide

theorem witness_FaultedStateIsQuiescent_reset :
    let s := { faulted with agenda := [.act .reset] }
    s.fault = true ∧ step s = .next State.reset ∧ (nextTurn s).1 = .act .reset := ⟨rfl, rfl, rfl⟩

/-- A 1 x 1 frame whose one request is pending. -/
theorem witness_RequestIsAtRasterPosition :
    let s := { running 1 1 0 with wsReq := some ⟨0, 0, 0, true⟩ }
    s.Inv Config.params ∧ s.wsReq = some ⟨0, 0, 0, true⟩ := by
  refine ⟨?_, rfl⟩
  constructor <;> simp [running, FaultRecordOk, frameSize, pendingAnswers, lostPixels, nextRequest]

/-- A COMPLETE that is enabled, and one that holds. -/
theorem witness_FlagIgnoresSamples :
    completeEnabled Config.params (answered 1 1 0 0 0 0) = true ∧
    exec .pixelComplete (answered 1 1 0 0 0 0) = .next (completePixel Config.params (answered 1 1 0 0 0 0)) ∧
    exec .pixelComplete (running 1 1 0) = .next (running 1 1 0) := ⟨rfl, rfl, rfl⟩

/-- A 1 x 1 frame with its sample waiting and room for its flag. -/
theorem witness_FrameCompletesWithOneFlagPerSample :
    let s := { running 1 1 0 with sIn := [true], agenda := pixelRounds 1 }
    s.Inv Config.params ∧ s.busy = true ∧ s.fault = false ∧ s.wsReq = none ∧ s.wsRsp = none ∧
      s.pixCount.toNat + 1 = frameSize s ∧ 1 ≤ s.sIn.length ∧ s.fOut.length + 1 ≤ Config.params.outDepth ∧
      s.agenda = pixelRounds 1 := by
  have hi : 1 ≤ Config.params.inDepth := Nat.succ_pos _
  refine ⟨?_, rfl, rfl, rfl, rfl, by decide, by decide, Nat.succ_le_succ (Nat.zero_le _), rfl⟩
  constructor <;> simp [running, FaultRecordOk, frameSize, pendingAnswers, lostPixels]
  exact hi

/-- The deadlocks: no sample with an empty channel, a full F_OUT with an answer waiting, a command while BUSY, and a request
without an answer. -/
theorem witness_DeadlocksAreHolds :
    let full := { answered 1 1 0 0 0 0 with fOut := List.replicate Config.params.outDepth true }
    let asked := { running 1 1 0 with wsReq := some ⟨0, 0, 0, true⟩ }
    ((running 1 1 0).busy = true ∧ (running 1 1 0).wsReq = none ∧ (running 1 1 0).sIn = [] ∧ (running 1 1 0).wsRsp = none) ∧
    (full.busy = true ∧ full.wsReq = none ∧ full.wsRsp ≠ none ∧ Config.params.outDepth ≤ full.fOut.length) ∧
    (commandWord (.frameStart 4#14 4#14) ≠ none ∧ instrAgent .pixelIssue ≠ .host) ∧
    asked.busy = true ∧ asked.wsReq ≠ none ∧ asked.wsRsp = none := by
  refine ⟨by decide, ⟨rfl, rfl, by simp [answered], by simp⟩, by decide, by decide⟩

/-- A pending request whose answer is the next turn. -/
theorem witness_FairSourceAnswersRequest :
    let s := { running 1 1 0 with wsReq := some ⟨0, 0, 0, true⟩, agenda := [.act .answer] }
    s.wsReq = some ⟨0, 0, 0, true⟩ ∧ FairFor .answer answerEnabled s :=
  ⟨rfl, fun _ => ⟨0, rfl⟩⟩

/-- A finished run whose next turn pops a flag, and one whose next turn is RESET. -/
theorem witness_FinishedRunKeepsItsResult :
    let s := { State.reset with fOut := [true], commandsEnded := true, agenda := [.act .pop] }
    let r := { State.reset with commandsEnded := true, agenda := [.act .reset] }
    (s.finished = true ∧ step s = .next { State.reset with commandsEnded := true, popped := [true] } ∧
      (nextTurn s).1 ≠ .act .reset) ∧
    r.finished = true ∧ step r = .next State.reset ∧ (nextTurn r).1 = .act .reset :=
  ⟨⟨rfl, rfl, by decide⟩, rfl, rfl, rfl⟩

end Sys2Proof.Tests
end

/-!
PROOFS. Enabling, holding and accepting (spec/00_scope.md R16, R17; spec/42_driver.md R117), and EVAL at the offsets that
every window has (R9, R101).
-/

namespace Sys2Proof.Machine

/-! ### Holding -/

/-- Every transaction is its effect guarded by its enabling condition: `exec` has no other way to answer (R16). -/
theorem exec_eq_transact (i : Instr) (s : State) :
    ∃ effect, exec i s = transact (instrEnabled Config.params s i) effect s := by
  cases i <;> exact ⟨_, rfl⟩

/-- Settles O44: the guard of `transact` is the enabling condition, and behind a false guard nothing changes. -/
theorem disabledTransactionsHold : Obligations.DisabledTransactionsHold := by
  intro i s hdisabled
  obtain ⟨effect, hexec⟩ := exec_eq_transact i s
  rw [hexec, hdisabled, transact_false]

/-! ### Accepting a command -/

/-- A command at a ready port is accepted: its offer leaves the port and its effect is taken (R117). -/
theorem commandStep_of_ready {effect : State → State} {s : State} (hbusy : s.busy = false) (hfault : s.fault = false) :
    commandStep effect s = .next (effect (takeOffer s)) := by
  rw [commandStep, (commandReady_iff s).2 ⟨hbusy, hfault⟩, transact_true]

/-- EVAL, once accepted with its offsets inside the window, writes its flag (R101). -/
theorem evalCommand_of_inside {cfg : Params} {row col : BitVec 14} (hrow : row.toNat < cfg.winH)
    (hcol : col.toNat < cfg.winW) (win : Window) (s : State) :
    evalCommand cfg row col win s =
      { s with evalFlag := evalWindow cfg win row.toNat col.toNat, evalValid := true } := by
  rw [evalCommand, if_pos ((offsetOk_iff ..).2 ⟨hrow, hcol⟩)]

/-- The window has at least five rows, whatever the configuration (R9). -/
theorem five_le_winH : 5 ≤ Config.params.winH := Nat.le_add_left 5 _

/-- The window has at least five columns, whatever the configuration (R9). -/
theorem five_le_winW : 5 ≤ Config.params.winW := Nat.le_add_left 5 _

/-- Settles O3: an offset below 5 lies inside every window, so the accepted EVAL writes its flag. -/
theorem evalCompletesInsideEveryWindow : Obligations.EvalCompletesInsideEveryWindow := by
  intro row col win s hbusy hfault hrow hcol
  have hinside : evalCommand Config.params row col win (takeOffer s) =
      { takeOffer s with evalFlag := evalWindow Config.params win row.toNat col.toNat, evalValid := true } :=
    evalCommand_of_inside (hrow.trans_le five_le_winH) (hcol.trans_le five_le_winW) win (takeOffer s)
  calc exec (.eval row col win) s
      = .next (evalCommand Config.params row col win (takeOffer s)) := commandStep_of_ready hbusy hfault
    _ = .next { s with
          cmdOffer := none
          evalFlag := evalWindow Config.params win row.toNat col.toNat
          evalValid := true } := congrArg _ hinside

end Sys2Proof.Machine

/-!
PROOFS. The state of the block (spec/10_state.md): what every transaction can do to it, who writes each register and
stream (R27-R36), the words of the status bundle (R39-R41), and the invariant that every step keeps.
-/

namespace Sys2Proof.Machine

/-! ### What a transaction can do -/

/-- The ways from `s` to a next state: each transaction's effects as whole states, with the conditions under which it
takes them, or a hold (R16, R17). A register's rule is a case analysis over these. -/
inductive Transition (s : State) : Instr → State → Prop
  /-- R110. -/
  | frameStart {h w : BitVec 14} (idle : s.busy = false) (sound : s.fault = false) (hheight : h ≠ 0#14)
      (hwidth : w ≠ 0#14) : Transition s (.frameStart h w)
        { takeOffer s with frameW := w, frameH := h, pixCount := 0#28, done := false, busy := true }
  /-- R110, R130 cause 2. -/
  | frameZero {h w : BitVec 14} (idle : s.busy = false) (sound : s.fault = false) (hzero : h = 0#14 ∨ w = 0#14) :
      Transition s (.frameStart h w) (raiseFault .frameZero (frameStartWord h w) (takeOffer s))
  /-- R101. -/
  | eval {row col : BitVec 14} {win : Window} (idle : s.busy = false) (sound : s.fault = false)
      (hrow : row.toNat < Config.params.winH) (hcol : col.toNat < Config.params.winW) :
      Transition s (.eval row col win)
        { takeOffer s with evalFlag := evalWindow Config.params win row.toNat col.toNat, evalValid := true }
  /-- R101, R130 cause 3. -/
  | evalOffset {row col : BitVec 14} {win : Window} (idle : s.busy = false) (sound : s.fault = false)
      (hout : Config.params.winH ≤ row.toNat ∨ Config.params.winW ≤ col.toNat) :
      Transition s (.eval row col win) (raiseFault .evalOffset (evalWord row col) (takeOffer s))
  /-- R71, R130 cause 1. -/
  | reserved {i : Instr} {cmd : Word} (idle : s.busy = false) (sound : s.fault = false)
      (hword : commandWord i = some cmd) (hop1 : fieldOp cmd ≠ 1#4) (hop2 : fieldOp cmd ≠ 2#4) :
      Transition s i (raiseFault .cmdReserved cmd (takeOffer s))
  /-- R111. -/
  | issue {smp : Bool} {rest : List Bool} (running : s.busy = true) (sound : s.fault = false) (hreq : s.wsReq = none)
      (hrsp : s.wsRsp = none) (hin : s.sIn = smp :: rest) :
      Transition s .pixelIssue { s with sIn := rest, wsReq := some (nextRequest smp s) }
  /-- R112, a pixel that is not the frame's last. -/
  | completeInner {rsp : WsResponse} (running : s.busy = true) (sound : s.fault = false)
      (hrsp : s.wsRsp = some rsp) (hroom : s.fOut.length < Config.params.outDepth)
      (hrow : rsp.startRow.toNat < Config.params.winH) (hcol : rsp.startCol.toNat < Config.params.winW)
      (hinner : s.pixCount.toNat + 1 ≠ frameSize s) : Transition s .pixelComplete
        { s with
          wsRsp := none
          fOut := s.fOut ++ [evalWindow Config.params rsp.win rsp.startRow.toNat rsp.startCol.toNat]
          pixCount := s.pixCount + 1#28 }
  /-- R112, R114: the frame's last pixel. -/
  | completeLast {rsp : WsResponse} (running : s.busy = true) (sound : s.fault = false)
      (hrsp : s.wsRsp = some rsp) (hroom : s.fOut.length < Config.params.outDepth)
      (hrow : rsp.startRow.toNat < Config.params.winH) (hcol : rsp.startCol.toNat < Config.params.winW)
      (hlast : s.pixCount.toNat + 1 = frameSize s) : Transition s .pixelComplete
        { s with
          wsRsp := none
          fOut := s.fOut ++ [evalWindow Config.params rsp.win rsp.startRow.toNat rsp.startCol.toNat]
          pixCount := s.pixCount + 1#28
          busy := false
          done := true }
  /-- R112, R130 cause 4. -/
  | sourceOffset {rsp : WsResponse} (running : s.busy = true) (sound : s.fault = false) (hrsp : s.wsRsp = some rsp)
      (hroom : s.fOut.length < Config.params.outDepth)
      (hout : Config.params.winH ≤ rsp.startRow.toNat ∨ Config.params.winW ≤ rsp.startCol.toNat) :
      Transition s .pixelComplete (raiseFault .srcOffset (rsp.startRow ++ rsp.startCol) { s with wsRsp := none })
  /-- R113. -/
  | answer {q : WsRequest} (hreq : s.wsReq = some q) : Transition s .wsAnswer
      { s with
        wsReq := none
        wsRsp := some (decodeAnswer Config.params (Config.winSrc s.draws s.wsHistory q))
        wsHistory := s.wsHistory ++ [q]
        draws := s.draws + 1 }
  /-- R115. -/
  | push {smp : Bool} (hroom : s.sIn.length < Config.params.inDepth) : Transition s (.push smp) (pushSample smp s)
  /-- R116. -/
  | pop {f : Bool} {rest : List Bool} (hout : s.fOut = f :: rest) :
      Transition s .pop { s with fOut := rest, popped := s.popped ++ [f] }
  /-- R118. -/
  | read {n : Fin 4} : Transition s (.read n) (readStatus n s)
  /-- R150. -/
  | reset : Transition s .reset (resetBlock s)
  /-- R17. -/
  | hold {i : Instr} : Transition s i s

/-- An accepted FRAME_START starts the frame or faults. -/
theorem Transition.of_frameStart {s : State} (h w : BitVec 14) (idle : s.busy = false) (sound : s.fault = false) :
    Transition s (.frameStart h w) (Machine.frameStart h w (takeOffer s)) := by
  rcases frameStart_cases h w (takeOffer s) with ⟨hzero, heq⟩ | ⟨hheight, hwidth, heq⟩ <;> rw [heq]
  · exact .frameZero idle sound hzero
  · exact .frameStart idle sound hheight hwidth

/-- An accepted EVAL writes its flag or faults. -/
theorem Transition.of_evalCommand {s : State} (row col : BitVec 14) (win : Window) (idle : s.busy = false)
    (sound : s.fault = false) :
    Transition s (.eval row col win) (evalCommand Config.params row col win (takeOffer s)) := by
  rcases evalCommand_cases Config.params row col win (takeOffer s) with ⟨hrow, hcol, heq⟩ | ⟨hout, heq⟩ <;>
    rw [heq]
  · exact .eval idle sound hrow hcol
  · exact .evalOffset idle sound hout

/-- An enabled COMPLETE counts an inner pixel, completes the frame or faults. -/
theorem Transition.of_completePixel {s : State} (hen : completeEnabled Config.params s = true) :
    Transition s .pixelComplete (completePixel Config.params s) := by
  obtain ⟨running, sound, ⟨rsp, hrsp⟩, hroom⟩ := (completeEnabled_iff ..).1 hen
  rcases completePixel_cases (cfg := Config.params) hrsp with ⟨hrow, hcol, heq⟩ | ⟨hout, heq⟩ <;> rw [heq]
  · rcases countPixel_cases (pushFlag (evalWindow Config.params rsp.win rsp.startRow.toNat rsp.startCol.toNat)
      { s with wsRsp := none }) with ⟨hlast, hcount⟩ | ⟨hinner, hcount⟩ <;> rw [hcount]
    · exact .completeLast running sound hrsp hroom hrow hcol hlast
    · exact .completeInner running sound hrsp hroom hrow hcol hinner
  · exact .sourceOffset running sound hrsp hroom hout

/-- Every transaction's answer is one of the transitions. -/
theorem exec_transition {i : Instr} {s t : State} (h : exec i s = .next t) : Transition s i t := by
  rcases exec_cases h with ⟨height, width, rfl, idle, sound, rfl⟩ | ⟨row, col, win, rfl, idle, sound, rfl⟩ |
    ⟨cmd, hword, hop1, hop2, idle, sound, rfl⟩ | ⟨rfl, hen, rfl⟩ | ⟨rfl, hen, rfl⟩ | ⟨rfl, hen, rfl⟩ |
    ⟨smp, rfl, hen, rfl⟩ | ⟨rfl, hen, rfl⟩ | ⟨n, rfl, rfl⟩ | ⟨rfl, rfl⟩ | rfl
  · exact .of_frameStart height width idle sound
  · exact .of_evalCommand row col win idle sound
  · exact .reserved idle sound hword hop1 hop2
  · obtain ⟨running, sound, hreq, hrsp, smp, rest, hin⟩ := (issueEnabled_iff s).1 hen
    rw [issuePixel_cons hin]
    exact .issue running sound hreq hrsp hin
  · exact .of_completePixel hen
  · obtain ⟨q, hreq⟩ := (answerEnabled_iff s).1 hen
    rw [answerWith_some hreq]
    exact .answer hreq
  · exact .push (of_decide_eq_true hen)
  · obtain ⟨f, rest, hout⟩ := List.exists_cons_of_ne_nil (l := s.fOut) (by simpa [popEnabled] using hen)
    rw [popFlag_cons hout]
    exact .pop hout
  · exact .read
  · exact .reset
  · exact .hold

/-! ### Who writes each register -/

/-- Settles O45: of all transitions only the started frame, the frame's last pixel and RESET write BUSY. -/
theorem busyChangesOnlyByItsEvents : Obligations.BusyChangesOnlyByItsEvents := by
  intro i s t hexec hne
  cases exec_transition hexec with
  | frameStart idle sound hheight hwidth => exact .inl ⟨rfl, _, _, rfl, hheight, hwidth⟩
  | completeLast running sound hrsp hroom hrow hcol hlast => exact .inr (.inl ⟨rfl, rfl, hlast, rfl⟩)
  | reset => exact .inr (.inr ⟨rfl, rfl⟩)
  | _ => exact absurd rfl hne

/-- Settles O46: the three transitions that write BUSY are the ones that write DONE. -/
theorem doneChangesOnlyByItsEvents : Obligations.DoneChangesOnlyByItsEvents := by
  intro i s t hexec hne
  cases exec_transition hexec with
  | frameStart => exact .inr ⟨rfl, .inl ⟨_, _, rfl, rfl⟩⟩
  | completeLast running sound hrsp hroom hrow hcol hlast => exact .inl ⟨rfl, rfl, hlast, rfl⟩
  | reset => exact .inr ⟨rfl, .inr rfl⟩
  | _ => exact absurd rfl hne

/-- While FAULT is set the fault registers stay: every transition that writes them but RESET needs FAULT = 0 (R131). -/
theorem Transition.fault_record_kept {i : Instr} {s t : State} (h : Transition s i t) (hfault : s.fault = true)
    (hreset : i ≠ .reset) : t.fault = true ∧ t.faultCause = s.faultCause ∧ t.faultInfo = s.faultInfo := by
  cases h with
  | answer | push | pop | read | hold => exact ⟨hfault, rfl, rfl⟩
  | reset => exact absurd rfl hreset
  | _ => exact Bool.noConfusion (‹s.fault = false›.symm.trans hfault)

/-- FAULT_CAUSE and FAULT_INFO are written together with FAULT = 1, but by RESET (R29). -/
theorem Transition.fault_record_unwritten {i : Instr} {s t : State} (h : Transition s i t) (hfault : t.fault = false)
    (hreset : i ≠ .reset) : t.faultCause = s.faultCause ∧ t.faultInfo = s.faultInfo := by
  cases h with
  | frameZero | evalOffset | reserved | sourceOffset => simp at hfault
  | reset => exact absurd rfl hreset
  | _ => exact ⟨rfl, rfl⟩

/-- Settles O47: the four transitions that raise a fault are those of R130's table. -/
theorem faultRecordIsSticky : Obligations.FaultRecordIsSticky := by
  intro i s t hexec
  have htrans := exec_transition hexec
  refine ⟨htrans.fault_record_kept, fun _ => htrans.fault_record_unwritten, fun hsound hraised => ?_⟩
  cases htrans with
  | reserved idle sound hword hop1 hop2 => exact .inl ⟨rfl, _, hword, hop1, hop2, rfl⟩
  | frameZero idle sound hzero => exact .inr (.inl ⟨rfl, _, _, rfl, hzero, rfl⟩)
  | evalOffset idle sound hout => exact .inr (.inr (.inl ⟨rfl, _, _, _, rfl, hout, rfl⟩))
  | sourceOffset running sound hrsp hroom hout => exact .inr (.inr (.inr ⟨rfl, rfl, _, hrsp, hout, rfl⟩))
  | reset => exact Bool.noConfusion hraised
  | _ => exact Bool.noConfusion (hsound.symm.trans hraised)

/-- Settles O49: only the completed EVAL, whose acceptance needs FAULT = 0, and RESET write the two registers. -/
theorem evalRegistersOnlyByEval : Obligations.EvalRegistersOnlyByEval := by
  intro i s t hexec hne
  cases exec_transition hexec with
  | eval idle sound => exact .inr ⟨_, _, _, rfl, rfl, sound, rfl⟩
  | reset => exact .inl ⟨rfl, rfl, rfl⟩
  | _ => exact hne.elim (absurd rfl) (absurd rfl)

/-- Settles O50: only the started frame and RESET write the dimensions; the two counting transitions also write
PIX_COUNT. -/
theorem frameRegistersChange : Obligations.FrameRegistersChange := by
  intro i s t hexec
  cases exec_transition hexec with
  | frameStart => exact ⟨fun _ => .inr rfl, fun _ => .inl ⟨rfl, .inr rfl⟩⟩
  | reset => exact ⟨fun _ => .inl rfl, fun _ => .inl ⟨rfl, .inl rfl⟩⟩
  | completeInner | completeLast =>
    exact ⟨fun hne => hne.elim (absurd rfl) (absurd rfl), fun _ => .inr ⟨rfl, rfl, _, rfl⟩⟩
  | _ => exact ⟨fun hne => hne.elim (absurd rfl) (absurd rfl), absurd rfl⟩

/-! ### Streams and the window-source channel -/

/-- Settles O51: PUSH and ISSUE are the two ends of S_IN, a counted pixel and POP those of F_OUT. -/
theorem streamsAreFifos : Obligations.StreamsAreFifos := by
  intro i s t hexec
  cases exec_transition hexec with
  | push => exact ⟨.inr (.inl ⟨_, rfl, rfl⟩), .inl rfl⟩
  | issue running sound hreq hrsp hin => exact ⟨.inr (.inr (.inl ⟨_, rfl, rfl, hin⟩)), .inl rfl⟩
  | completeInner | completeLast => exact ⟨.inl rfl, .inr (.inl ⟨_, rfl, rfl, rfl⟩)⟩
  | pop hout => exact ⟨.inl rfl, .inr (.inr (.inl ⟨rfl, _, hout⟩))⟩
  | reset => exact ⟨.inr (.inr (.inr ⟨rfl, rfl⟩)), .inr (.inr (.inr ⟨rfl, rfl⟩))⟩
  | _ => exact ⟨.inl rfl, .inl rfl⟩

/-- Settles O52: ISSUE fills WS_REQ, WS_ANSWER moves it on to WS_RSP, and each way of COMPLETE empties WS_RSP. -/
theorem wsChannelWriters : Obligations.WsChannelWriters := by
  intro i s t hexec
  cases exec_transition hexec with
  | issue running sound hreq => exact ⟨fun _ => .inl ⟨rfl, hreq, Option.some_ne_none _⟩, absurd rfl⟩
  | answer hreq =>
    exact ⟨fun _ => .inr ⟨.inl rfl, rfl⟩, fun _ => .inl ⟨rfl, by simp [hreq], Option.some_ne_none _⟩⟩
  | completeInner | completeLast | sourceOffset => exact ⟨absurd rfl, fun _ => .inr ⟨.inl rfl, rfl⟩⟩
  | reset => exact ⟨fun _ => .inr ⟨.inr rfl, rfl⟩, fun _ => .inr ⟨.inr rfl, rfl⟩⟩
  | _ => exact ⟨absurd rfl, absurd rfl⟩

/-! ### The status bundle -/

/-- READ writes no register that the status bundle shows (R118). -/
theorem statusBundle_readStatus (n m : Fin 4) (s : State) : statusBundle (readStatus n s) m = statusBundle s m := rfl

/-- READ answers a state with the same status bundle, as R39 to R41 ask of each word. -/
theorem statusBundle_of_exec_read {n m : Fin 4} {s t : State} (h : exec (.read n) s = .next t) :
    statusBundle t m = statusBundle s m := by
  cases exec_transition h with
  | reserved idle sound hword => cases hword
  | read => exact statusBundle_readStatus n m s
  | hold => rfl

/-- The codes of the causes that exist are 0 to 4 (R130). -/
theorem faultCode_le_four (c : FaultCause) : (faultCode c).toNat ≤ 4 := by
  cases c <;> decide

/-- The five flags of STATUS (R39). -/
theorem statusWord_flags (s : State) :
    (statusWord s).getLsbD 0 = s.busy ∧ (statusWord s).getLsbD 1 = s.done ∧ (statusWord s).getLsbD 2 = s.fault ∧
    (statusWord s).getLsbD 3 = s.evalValid ∧ (statusWord s).getLsbD 4 = s.evalFlag := by
  simp only [statusWord, BitVec.getLsbD_append]
  simp

/-- FAULT_CAUSE and the zeros of STATUS (R39), bit by bit. -/
theorem statusWord_cause_and_zeros (s : State) :
    (statusWord s).extractLsb' 5 3 = 0#3 ∧ (statusWord s).extractLsb' 8 4 = faultCode s.faultCause ∧
    (statusWord s).extractLsb' 12 20 = 0#20 := by
  refine ⟨?_, ?_, ?_⟩
  all_goals
    refine BitVec.eq_of_getLsbD_eq fun i hi => ?_
    simp only [statusWord, BitVec.getLsbD_extractLsb', BitVec.getLsbD_append]
    interval_cases i <;> simp

/-- Settles O13: the flags, the cause and the zeros of STATUS, the legal causes, and READ's frame. -/
theorem statusWordLayout : Obligations.StatusWordLayout := by
  refine ⟨fun s => ?_, fun s t n m => statusBundle_of_exec_read, rfl⟩
  obtain ⟨hbusy, hdone, hfault, hvalid, hflag⟩ := statusWord_flags s
  obtain ⟨hlow, hcause, hhigh⟩ := statusWord_cause_and_zeros s
  exact ⟨hbusy, hdone, hfault, hvalid, hflag, hlow, hcause, faultCode_le_four s.faultCause, hhigh⟩

/-- FRAME_W, FRAME_H and the zeros of FRAME_DIM (R40). -/
theorem frameDimWord_fields (s : State) :
    fieldB (frameDimWord s) = s.frameW ∧ fieldA (frameDimWord s) = s.frameH ∧ fieldOp (frameDimWord s) = 0#4 :=
  ⟨BitVec.extractLsb'_append_eq_right,
    (BitVec.extractLsb'_append_eq_of_le (xhi := 0#4 ++ s.frameH) (by decide)).trans BitVec.extractLsb'_append_eq_right,
    (BitVec.extractLsb'_append_eq_of_le (xhi := 0#4 ++ s.frameH) (by decide)).trans BitVec.extractLsb'_append_eq_left⟩

/-- Settles O14: FRAME_DIM holds its dimensions where a command word has its fields B and A. -/
theorem frameDimWordLayout : Obligations.FrameDimWordLayout := by
  refine ⟨fun s => ?_, fun s t n m => statusBundle_of_exec_read, rfl⟩
  obtain ⟨hwidth, hheight, hzero⟩ := frameDimWord_fields s
  exact ⟨hwidth, hheight, hzero, hwidth.trans (fieldB_frameStartWord ..).symm,
    hheight.trans (fieldA_frameStartWord ..).symm⟩

/-- Settles O15: PIX_COUNT is the low and the zeros are the high part of its word. -/
theorem pixCountAndFaultInfoWords : Obligations.PixCountAndFaultInfoWords :=
  ⟨fun _ => ⟨BitVec.extractLsb'_append_eq_right, BitVec.extractLsb'_append_eq_left, rfl⟩,
    fun _ _ _ _ => statusBundle_of_exec_read, rfl, rfl⟩

/-! ### The invariant after reset -/

/-- Settles O53: every register, stream and record is empty or zero. -/
theorem invHoldsAtReset : Obligations.InvHoldsAtReset where
  faultRecord := ⟨rfl, rfl⟩
  busyDims := nofun
  busyCount := nofun
  idleCount _ := rfl
  doneIdle := nofun
  flagNeedsValid _ := rfl
  oneSided := .inl rfl
  requestOk := nofun
  responseOk := nofun
  sInFits := Nat.zero_le _
  fOutFits := Nat.zero_le _
  flagsKept := le_rfl
  oneToOne := rfl

/-! ### What the invariant gives its cases -/

/-- Without a fault the fault record is the empty one (R29). -/
theorem faultRecordOk_iff_of_sound {cfg : Params} {s : State} (sound : s.fault = false) :
    FaultRecordOk cfg s ↔ s.faultCause = .noFault ∧ s.faultInfo = 0#32 := by
  unfold FaultRecordOk
  cases s.faultCause <;> simp [sound]

/-- A fault-free record does not speak of BUSY: it holds in every fault-free state with the same fault registers. -/
theorem FaultRecordOk.congr_of_sound {cfg : Params} {s t : State} (h : FaultRecordOk cfg s) (hs : s.fault = false)
    (ht : t.fault = false) (hcause : t.faultCause = s.faultCause) (hinfo : t.faultInfo = s.faultInfo) :
    FaultRecordOk cfg t := by
  rw [faultRecordOk_iff_of_sound ht, hcause, hinfo]
  exact (faultRecordOk_iff_of_sound hs).1 h

theorem lostPixels_of_ne {s : State} (h : s.faultCause ≠ .srcOffset) : lostPixels s = 0 := if_neg h

theorem pendingAnswers_of_none {s : State} (h : s.wsRsp = none) : pendingAnswers s = 0 := by simp [pendingAnswers, h]

theorem pendingAnswers_of_some {s : State} {rsp : WsResponse} (h : s.wsRsp = some rsp) : pendingAnswers s = 1 := by
  simp [pendingAnswers, h]

/-- A frame has fewer pixels than PIX_COUNT can count (R32). -/
theorem frameSize_lt (s : State) : frameSize s < 2 ^ 28 :=
  calc frameSize s < 2 ^ 14 * 2 ^ 14 := Nat.mul_lt_mul'' s.frameW.isLt s.frameH.isLt
    _ = 2 ^ 28 := by norm_num

namespace State.Inv

variable {cfg : Params} {s : State}

/-- While no fault is recorded no pixel was lost to one. -/
theorem lostPixels_of_sound (hs : s.Inv cfg) (sound : s.fault = false) : lostPixels s = 0 :=
  lostPixels_of_ne (by simp [((faultRecordOk_iff_of_sound sound).1 hs.faultRecord).1])

/-- Between frames the window-source channel is empty (R119). -/
theorem channel_empty_of_idle (hs : s.Inv cfg) (idle : s.busy = false) : s.wsReq = none ∧ s.wsRsp = none := by
  constructor
  · refine Option.eq_none_iff_forall_ne_some.2 fun q hq => ?_
    exact Bool.noConfusion (idle.symm.trans (hs.requestOk q hq).1)
  · refine Option.eq_none_iff_forall_ne_some.2 fun rsp hrsp => ?_
    exact Bool.noConfusion (idle.symm.trans (hs.responseOk rsp hrsp).1)

/-- Counting a pixel of a running frame does not wrap PIX_COUNT. -/
theorem pixCount_add_one (hs : s.Inv cfg) (running : s.busy = true) :
    (s.pixCount + 1#28).toNat = s.pixCount.toNat + 1 := by
  have hcount := hs.busyCount running
  have hsize := frameSize_lt s
  rw [BitVec.toNat_add]
  exact Nat.mod_eq_of_lt (by simp; omega)

/-- With an answer waiting there is no request. -/
theorem noRequest (hs : s.Inv cfg) {rsp : WsResponse} (hrsp : s.wsRsp = some rsp) : s.wsReq = none :=
  hs.oneSided.resolve_right (by simp [hrsp])

/-- With a request pending there is no answer. -/
theorem noResponse (hs : s.Inv cfg) {q : WsRequest} (hreq : s.wsReq = some q) : s.wsRsp = none :=
  hs.oneSided.resolve_left (by simp [hreq])

/-! ### Each transition keeps the invariant -/

/-- The host's and the scheduler's choices are not in the invariant. -/
theorem withSchedule (hs : s.Inv cfg) (agenda : List Turn) (turns draws : Nat) :
    { s with agenda := agenda, turns := turns, draws := draws }.Inv cfg := { hs with }

/-- Taking the offer from the port leaves the registers. -/
theorem takeOffer (hs : s.Inv cfg) : (takeOffer s).Inv cfg := { hs with }

/-- A started frame has nonzero dimensions, its first pixel ahead, and no earlier frame's request or answer. -/
theorem frameStart (hs : s.Inv cfg) (idle : s.busy = false) (sound : s.fault = false) {h w : BitVec 14}
    (hheight : h ≠ 0#14) (hwidth : w ≠ 0#14) :
    { s with frameW := w, frameH := h, pixCount := 0#28, done := false, busy := true }.Inv cfg :=
  have hdims : 1 ≤ w.toNat ∧ 1 ≤ h.toNat := ⟨by bv_omega, by bv_omega⟩
  have hchannel := hs.channel_empty_of_idle idle
  { hs with
    faultRecord := hs.faultRecord.congr_of_sound sound sound rfl rfl
    busyDims := fun _ => hdims
    busyCount := fun _ => Nat.mul_pos hdims.1 hdims.2
    idleCount := nofun
    doneIdle := nofun
    requestOk := by simp [hchannel]
    responseOk := by simp [hchannel]
    flagsKept := Nat.zero_le _ }

/-- A fault of a command leaves the rest as it was; it loses no pixel, and its own record is to be shown. -/
theorem raiseFault_of_idle (hs : s.Inv cfg) (idle : s.busy = false) (sound : s.fault = false) {c : FaultCause}
    {info : Word} (hc : c ≠ .srcOffset) (hrecord : FaultRecordOk cfg (raiseFault c info s)) :
    (raiseFault c info s).Inv cfg :=
  have hchannel := hs.channel_empty_of_idle idle
  { hs with
    faultRecord := hrecord
    requestOk := by simp [hchannel]
    responseOk := by simp [hchannel]
    oneToOne := by
      rw [lostPixels_of_ne hc, ← hs.lostPixels_of_sound sound]
      exact hs.oneToOne }

/-- A completed EVAL makes its flag valid. -/
theorem evalFlag (hs : s.Inv cfg) (f : Bool) : { s with evalFlag := f, evalValid := true }.Inv cfg :=
  { hs with flagNeedsValid := nofun }

/-- ISSUE's request is the one for the pixel PIX_COUNT stands at. -/
theorem issue (hs : s.Inv cfg) (running : s.busy = true) (sound : s.fault = false) (hrsp : s.wsRsp = none)
    {smp : Bool} {rest : List Bool} (hin : s.sIn = smp :: rest) :
    { s with sIn := rest, wsReq := some (nextRequest smp s) }.Inv cfg :=
  { hs with
    oneSided := .inr hrsp
    requestOk := by
      rintro q ⟨⟩
      exact ⟨running, sound, rfl⟩
    sInFits := by
      have hfits := hs.sInFits
      simp only [hin, List.length_cons] at hfits ⊢
      omega }

/-- The answered request joins the history as its answer begins to wait. -/
theorem answer (hs : s.Inv cfg) {q : WsRequest} (hreq : s.wsReq = some q) (a : WsAnswer) :
    { s with
      wsReq := none
      wsRsp := some (decodeAnswer cfg a)
      wsHistory := s.wsHistory ++ [q]
      draws := s.draws + 1 }.Inv cfg :=
  { hs with
    oneSided := .inl rfl
    requestOk := nofun
    responseOk := by
      obtain ⟨running, sound, _⟩ := hs.requestOk q hreq
      rintro rsp ⟨⟩
      exact ⟨running, sound, decodeAnswer_shaped cfg a⟩
    oneToOne := by
      have hcount := hs.oneToOne
      rw [pendingAnswers_of_none (hs.noResponse hreq)] at hcount
      rw [pendingAnswers_of_some rfl, List.length_append, ← hcount]
      simp [lostPixels]
      omega }

/-- The flag pushed for the waiting answer takes that answer's place in the count of answered requests. -/
theorem oneToOne_pushFlag (hs : s.Inv cfg) {rsp : WsResponse} (hrsp : s.wsRsp = some rsp) (f : Bool) :
    s.popped.length + (s.fOut ++ [f]).length + 0 + lostPixels s = s.wsHistory.length := by
  have hcount := hs.oneToOne
  rw [pendingAnswers_of_some hrsp] at hcount
  rw [List.length_append, ← hcount, List.length_singleton]
  omega

/-- The pixel counted has its flag in F_OUT. -/
theorem flagsKept_pushFlag (hs : s.Inv cfg) (running : s.busy = true) (f : Bool) :
    (s.pixCount + 1#28).toNat ≤ s.popped.length + (s.fOut ++ [f]).length := by
  rw [hs.pixCount_add_one running, List.length_append]
  exact Nat.succ_le_succ hs.flagsKept

/-- A pixel that is not the frame's last leaves more of the frame. -/
theorem completeInner (hs : s.Inv cfg) (running : s.busy = true) {rsp : WsResponse} (hrsp : s.wsRsp = some rsp)
    (hroom : s.fOut.length < cfg.outDepth) (hinner : s.pixCount.toNat + 1 ≠ frameSize s) (f : Bool) :
    { s with wsRsp := none, fOut := s.fOut ++ [f], pixCount := s.pixCount + 1#28 }.Inv cfg :=
  { hs with
    busyCount := fun _ => by
      rw [hs.pixCount_add_one running]
      exact lt_of_le_of_ne (hs.busyCount running) hinner
    idleCount := fun idle => Bool.noConfusion (idle.symm.trans running)
    oneSided := .inr rfl
    requestOk := by simp [hs.noRequest hrsp]
    responseOk := nofun
    fOutFits := by simpa using Nat.succ_le_of_lt hroom
    flagsKept := hs.flagsKept_pushFlag running f
    oneToOne := hs.oneToOne_pushFlag hrsp f }

/-- After the frame's last pixel PIX_COUNT is the frame's size. -/
theorem completeLast (hs : s.Inv cfg) (running : s.busy = true) (sound : s.fault = false) {rsp : WsResponse}
    (hrsp : s.wsRsp = some rsp) (hroom : s.fOut.length < cfg.outDepth) (hlast : s.pixCount.toNat + 1 = frameSize s)
    (f : Bool) :
    { s with
      wsRsp := none
      fOut := s.fOut ++ [f]
      pixCount := s.pixCount + 1#28
      busy := false
      done := true }.Inv cfg :=
  { hs with
    faultRecord := hs.faultRecord.congr_of_sound sound sound rfl rfl
    busyDims := nofun
    busyCount := nofun
    idleCount := fun _ => (hs.pixCount_add_one running).trans hlast
    doneIdle := fun _ => ⟨rfl, hlast ▸ Nat.succ_pos _⟩
    oneSided := .inr rfl
    requestOk := by simp [hs.noRequest hrsp]
    responseOk := nofun
    fOutFits := by simpa using Nat.succ_le_of_lt hroom
    flagsKept := hs.flagsKept_pushFlag running f
    oneToOne := hs.oneToOne_pushFlag hrsp f }

/-- An answer outside the window is lost to the fault it raises. -/
theorem sourceOffset (hs : s.Inv cfg) (running : s.busy = true) (sound : s.fault = false) {rsp : WsResponse}
    (hrsp : s.wsRsp = some rsp) (hout : cfg.winH ≤ rsp.startRow.toNat ∨ cfg.winW ≤ rsp.startCol.toNat) :
    (raiseFault .srcOffset (rsp.startRow ++ rsp.startCol) { s with wsRsp := none }).Inv cfg :=
  { hs with
    faultRecord := by
      refine ⟨rfl, running, ?_⟩
      rwa [raiseFault_faultInfo, BitVec.extractLsb'_append_eq_left, BitVec.extractLsb'_append_eq_right]
    oneSided := .inr rfl
    requestOk := by simp [hs.noRequest hrsp]
    responseOk := nofun
    oneToOne := by
      have hcount := hs.oneToOne
      rwa [pendingAnswers_of_some hrsp, hs.lostPixels_of_sound sound] at hcount }

/-- PUSH needs room in S_IN. -/
theorem pushSample (hs : s.Inv cfg) (hroom : s.sIn.length < cfg.inDepth) (smp : Bool) :
    (pushSample smp s).Inv cfg :=
  { hs with
    sInFits := by
      rw [pushSample_sIn, List.length_append]
      exact hroom }

/-- A popped flag moves from F_OUT to the record of the popped ones. -/
theorem pop (hs : s.Inv cfg) {f : Bool} {rest : List Bool} (hout : s.fOut = f :: rest) :
    { s with fOut := rest, popped := s.popped ++ [f] }.Inv cfg := by
  have hlen : s.fOut.length = rest.length + 1 := by rw [hout, List.length_cons]
  have htotal : (s.popped ++ [f]).length + rest.length = s.popped.length + s.fOut.length := by
    rw [hlen, List.length_append, List.length_singleton]
    omega
  exact { hs with
    fOutFits := (Nat.le_of_lt (hlen ▸ Nat.lt_succ_self _)).trans hs.fOutFits
    flagsKept := htotal ▸ hs.flagsKept
    oneToOne := htotal ▸ hs.oneToOne }

/-- READ's record is not in the invariant. -/
theorem readStatus (hs : s.Inv cfg) (n : Fin 4) : (readStatus n s).Inv cfg := { hs with }

/-- Ending the host's commands is not in the invariant. -/
theorem endCommands (hs : s.Inv cfg) : (endCommands s).Inv cfg := { hs with }

end State.Inv

/-- RESET leaves the state after reset but for choices that are not in the invariant. -/
theorem resetBlock_inv (s : State) : (resetBlock s).Inv Config.params :=
  invHoldsAtReset.withSchedule s.agenda s.turns s.draws

/-- Every transition keeps the invariant. -/
theorem Transition.inv {i : Instr} {s t : State} (h : Transition s i t) (hs : s.Inv Config.params) :
    t.Inv Config.params := by
  cases h with
  | frameStart idle sound hheight hwidth => exact hs.takeOffer.frameStart idle sound hheight hwidth
  | frameZero idle sound hzero =>
    exact hs.takeOffer.raiseFault_of_idle idle sound (by decide) (by simpa [FaultRecordOk, idle] using hzero)
  | eval => exact hs.takeOffer.evalFlag _
  | evalOffset idle sound hout =>
    exact hs.takeOffer.raiseFault_of_idle idle sound (by decide) (by simpa [FaultRecordOk, idle] using hout)
  | reserved idle sound hword hop1 hop2 =>
    exact hs.takeOffer.raiseFault_of_idle idle sound (by decide) (by simp [FaultRecordOk, idle, hop1, hop2])
  | issue running sound hreq hrsp hin => exact hs.issue running sound hrsp hin
  | completeInner running sound hrsp hroom hrow hcol hinner => exact hs.completeInner running hrsp hroom hinner _
  | completeLast running sound hrsp hroom hrow hcol hlast => exact hs.completeLast running sound hrsp hroom hlast _
  | sourceOffset running sound hrsp hroom hout => exact hs.sourceOffset running sound hrsp hout
  | answer hreq => exact hs.answer hreq _
  | push hroom => exact hs.pushSample hroom _
  | pop hout => exact hs.pop hout
  | read => exact hs.readStatus _
  | reset => exact resetBlock_inv s
  | hold => exact hs

/-! ### Steps -/

/-- Choosing the next turn keeps the invariant. -/
theorem State.Inv.nextTurn {cfg : Params} {s : State} (hs : s.Inv cfg) : (nextTurn s).2.Inv cfg := by
  obtain ⟨rest, n, heq⟩ := nextTurn_state s
  rw [heq]
  exact hs.withSchedule rest n s.draws

/-- Putting an offer on the port, or ending the commands, keeps the invariant. -/
theorem State.Inv.turnState {cfg : Params} {s : State} (hs : s.Inv cfg) (t : Turn) : (turnState s t).Inv cfg := by
  rcases turnState_cases s t with heq | ⟨o, _, _, heq⟩ | heq <;> rw [heq]
  · exact hs
  · exact { hs with }
  · exact hs.endCommands

/-- Settles O54: the turn's state keeps the invariant, and so does the transition from it. -/
theorem stepKeepsInv : Obligations.StepKeepsInv := by
  intro s t hs hstep
  have hturn := hs.nextTurn.turnState (Machine.nextTurn s).1
  rcases step_cases hstep with ⟨i, _, hexec⟩ | ⟨_, rfl⟩
  · exact (exec_transition hexec).inv hturn
  · exact hturn

end Sys2Proof.Machine

/-!
PROOFS. Toroidal addressing (spec/20_memory.md R49-R52): a wrapped coordinate as one conditional subtraction, and the
distinct cells that the kernel positions read.
-/

namespace Sys2Proof

/-! ### The window is at least as large as the kernel -/

/-- An admissible configuration passes every check. -/
theorem Params.passes_of_admissible {cfg : Params} (h : cfg.admissible = true) {c : Check} (hc : c ∈ Check.all) :
    c.passes cfg = true :=
  List.all_eq_true.1 h c hc

/-- An admissible window has at least five rows (R9). -/
theorem Params.five_le_winH {cfg : Params} (h : cfg.admissible = true) : 5 ≤ cfg.winH :=
  (of_decide_eq_true (Params.passes_of_admissible h (c := .winHRange) (by decide))).1

/-- An admissible window has at least five columns (R9). -/
theorem Params.five_le_winW {cfg : Params} (h : cfg.admissible = true) : 5 ≤ cfg.winW :=
  (of_decide_eq_true (Params.passes_of_admissible h (c := .winWRange) (by decide))).1

namespace Machine

/-! ### Wrapping -/

section Wrap

variable {dim : Nat} (hdim : 5 ≤ dim)
include hdim

/-- R49: a wrapped coordinate lies inside its dimension, whatever the offset. -/
theorem wrapCoord_lt (start delta : Nat) : wrapCoord dim start delta < dim :=
  Nat.mod_lt _ (Nat.lt_of_lt_of_le (by decide) hdim)

/-- R50: an offset inside the dimension and a kernel index reach at most into the next copy of the window. -/
theorem add_kernelIndex_lt {start : Nat} (hstart : start < dim) (k : KIdx) : start + k.val < 2 * dim := by
  have hk : k.val < dim := k.isLt.trans_le hdim
  omega

/-- R50: so wrapping takes the dimension away at most once. -/
theorem wrapCoord_eq_ite {start : Nat} (hstart : start < dim) (k : KIdx) :
    wrapCoord dim start k = if dim ≤ start + k.val then start + k.val - dim else start + k.val := by
  rw [wrapCoord, Nat.add_mod_eq_ite, Nat.mod_eq_of_lt hstart, Nat.mod_eq_of_lt (k.isLt.trans_le hdim)]

/-- R51: at offset 0 wrapping is the identity on the kernel indices. -/
theorem wrapCoord_zero (k : KIdx) : wrapCoord dim 0 k = k.val := by
  rw [wrapCoord, Nat.zero_add, Nat.mod_eq_of_lt (k.isLt.trans_le hdim)]

/-- R52: kernel indices differ by less than the dimension, so their wrapped coordinates differ. -/
theorem wrapCoord_injective (start : Nat) : Function.Injective fun k : KIdx => wrapCoord dim start k := by
  intro k k' (heq : start + k.val ≡ start + k'.val [MOD dim])
  have hmod : k.val ≡ k'.val [MOD dim] := heq.add_left_cancel'
  exact Fin.ext (hmod.eq_of_lt_of_lt (k.isLt.trans_le hdim) (k'.isLt.trans_le hdim))

end Wrap

/-- R52: in a dimension of five every coordinate is read, since five indices give five distinct ones. -/
theorem exists_wrapCoord_eq {dim : Nat} (hdim : dim = 5) (start : Nat) {r : Nat} (hr : r < 5) :
    ∃ k : KIdx, wrapCoord dim start k = r := by
  subst hdim
  have hinj : Function.Injective fun k : KIdx => (⟨wrapCoord 5 start k, wrapCoord_lt le_rfl start k⟩ : Fin 5) :=
    fun _ _ heq => wrapCoord_injective le_rfl start (Fin.val_eq_of_eq heq)
  obtain ⟨k, hk⟩ := Finite.surjective_of_injective hinj ⟨r, hr⟩
  exact ⟨k, Fin.val_eq_of_eq hk⟩

/-- Settles O24: each clause is a law of wrapping, for the rows and for the columns. -/
theorem wrapIsOneSubtraction : Obligations.WrapIsOneSubtraction := by
  intro cfg hadm k
  have hH := Params.five_le_winH hadm
  have hW := Params.five_le_winW hadm
  exact ⟨fun start => ⟨wrapCoord_lt hH start k, wrapCoord_lt hW start k⟩,
    fun _ hr0 => ⟨add_kernelIndex_lt hH hr0 k, wrapCoord_eq_ite hH hr0 k⟩,
    fun _ hc0 => ⟨add_kernelIndex_lt hW hc0 k, wrapCoord_eq_ite hW hc0 k⟩,
    wrapCoord_zero hH k, wrapCoord_zero hW k⟩

/-- Settles O25: wrapping is injective, and in a 5 x 5 window also onto, for rows and columns apart. -/
theorem eachCellReadAtMostOnce : Obligations.EachCellReadAtMostOnce := by
  intro cfg hadm r0 c0
  have hrow := wrapCoord_injective (Params.five_le_winH hadm) r0
  have hcol := wrapCoord_injective (Params.five_le_winW hadm) c0
  refine ⟨fun _ _ heq => hrow heq, fun _ _ heq => hcol heq, fun hH hW r c hr hc => ?_⟩
  obtain ⟨i, hi⟩ := exists_wrapCoord_eq hH r0 hr
  obtain ⟨j, hj⟩ := exists_wrapCoord_eq hW c0 hc
  refine ⟨(i, j), ⟨hi, hj⟩, ?_⟩
  rintro ⟨i', j'⟩ ⟨hi', hj'⟩
  exact Prod.ext (hrow (hi'.trans hi.symm)) (hcol (hj'.trans hj.symm))

end Machine

end Sys2Proof

/-!
PROOFS. A frame taken pixel by pixel (spec/42_driver.md R111-R114, R119-R121): the state in which each round of ISSUE,
WS_ANSWER and COMPLETE leaves the block, in closed form, and the run of a whole frame.
-/

namespace Sys2Proof.Machine

/-! ### Runs and turns -/

section Run

variable {M : Host.Core} {s t : M.State}

/-- A run goes on from the state its first step answers. -/
theorem run_succ (h : M.step s = .next t) (n : Nat) : M.run (n + 1) s = M.run n t := by
  simp only [Host.Core.run, h]

/-- A run of `m + n` steps is one of `m` steps and one of `n` steps from there. -/
theorem run_add {m : Nat} (h : M.run m s = .next t) (n : Nat) : M.run (m + n) s = M.run n t := by
  induction m generalizing s with
  | zero =>
    obtain rfl : s = t := Host.Outcome.next.inj h
    rw [Nat.zero_add]
  | succ m ih =>
    rw [Nat.add_right_comm]
    cases hstep : M.step s with
    | next u =>
      rw [run_succ hstep] at h ⊢
      exact ih h
    | fault r => simp [Host.Core.run, hstep] at h
    | refused r => simp [Host.Core.run, hstep] at h

end Run

/-- A run of the block goes on from the state its first step answers. -/
theorem run_step {s t : State} (h : step s = .next t) (n : Nat) :
    Host.Core.run core (n + 1) s = Host.Core.run core n t := run_succ (M := core) h n

/-- A turn of an agent that offers no command runs the agent's own transaction (R22, R135). -/
theorem step_act {s : State} {a : Action} {rest : List Turn} (hagenda : s.agenda = .act a :: rest)
    (ha : ∀ o, a ≠ .command o) : step s = exec (decode Config.params a) { s with agenda := rest } := by
  unfold step
  rw [nextTurn_cons hagenda]
  cases a
  case command o => exact absurd rfl (ha o)
  all_goals rfl

/-- Such a turn is used up with nothing else changed when its transaction is not enabled (R17). -/
theorem step_act_hold {s : State} {a : Action} {rest : List Turn} (hagenda : s.agenda = .act a :: rest)
    (ha : ∀ o, a ≠ .command o) (hoff : instrEnabled Config.params s (decode Config.params a) = false) :
    step s = .next { s with agenda := rest } := by
  rw [step_act hagenda ha]
  exact disabledTransactionsHold _ _ hoff

/-- Turns that are all used up with nothing else changed leave the state without an agenda. -/
theorem run_held {s : State} {ts : List Turn}
    (hheld : ∀ t ∈ ts, ∀ rest, step { s with agenda := t :: rest } = .next { s with agenda := rest }) :
    Host.Core.run core ts.length { s with agenda := ts } = .next { s with agenda := [] } := by
  induction ts with
  | nil => rfl
  | cons t rest ih =>
    obtain ⟨hfirst, hrest⟩ := List.forall_mem_cons.1 hheld
    exact (run_step (hfirst rest) _).trans (ih hrest)

theorem pixelRounds_length (n : Nat) : (pixelRounds n).length = 3 * n := by
  induction n with
  | zero => rfl
  | succ n ih => rw [pixelRounds, List.length_cons, List.length_cons, List.length_cons, ih, Nat.mul_succ]

theorem mem_pixelRounds {t : Turn} {n : Nat} (h : t ∈ pixelRounds n) :
    t = .act .issue ∨ t = .act .answer ∨ t = .act .complete := by
  induction n with
  | zero => exact absurd h List.not_mem_nil
  | succ n ih =>
    simp only [pixelRounds, List.mem_cons] at h
    rcases h with h | h | h | h
    · exact .inl h
    · exact .inr (.inl h)
    · exact .inr (.inr h)
    · exact ih h

/-- In a faulted state with no request pending, rounds are used up with nothing else changed (R132). -/
theorem run_rounds_of_faulted {s : State} (hfault : s.fault = true) (hreq : s.wsReq = none) (n : Nat) :
    Host.Core.run core (3 * n) { s with agenda := pixelRounds n } = .next { s with agenda := [] } := by
  rw [← pixelRounds_length]
  refine run_held fun t ht rest => ?_
  rcases mem_pixelRounds ht with rfl | rfl | rfl <;> refine step_act_hold rfl nofun ?_
  · simp [decode, instrEnabled, issueEnabled, hfault]
  · simp [decode, instrEnabled, answerEnabled, hreq]
  · simp [decode, instrEnabled, completeEnabled, hfault]

/-! ### The three transactions of a round, enabled -/

/-- An enabled ISSUE takes the head sample and requests its window (R111). -/
theorem exec_pixelIssue {s : State} {smp : Bool} {xs : List Bool} (running : s.busy = true) (sound : s.fault = false)
    (hreq : s.wsReq = none) (hrsp : s.wsRsp = none) (hin : s.sIn = smp :: xs) :
    exec .pixelIssue s = .next { s with sIn := xs, wsReq := some (nextRequest smp s) } :=
  calc exec .pixelIssue s
      = transact (issueEnabled s) (issuePixel s) s := rfl
    _ = _ := by
      rw [(issueEnabled_iff s).2 ⟨running, sound, hreq, hrsp, smp, xs, hin⟩, transact_true, issuePixel_cons hin]

/-- A pending request is answered and joins the history (R113). -/
theorem exec_wsAnswer {s : State} {q : WsRequest} (hreq : s.wsReq = some q) :
    exec .wsAnswer s = .next
      { s with
        wsReq := none
        wsRsp := some (decodeAnswer Config.params (Config.winSrc s.draws s.wsHistory q))
        wsHistory := s.wsHistory ++ [q]
        draws := s.draws + 1 } :=
  calc exec .wsAnswer s
      = transact (answerEnabled s) (answerWith Config.params Config.winSrc s) s := rfl
    _ = _ := by rw [(answerEnabled_iff s).2 ⟨q, hreq⟩, transact_true, answerWith_some hreq]

/-- An enabled COMPLETE takes its effect (R112). -/
theorem exec_pixelComplete {s : State} {rsp : WsResponse} (running : s.busy = true) (sound : s.fault = false)
    (hrsp : s.wsRsp = some rsp) (hroom : s.fOut.length < Config.params.outDepth) :
    exec .pixelComplete s = .next (completePixel Config.params s) :=
  calc exec .pixelComplete s
      = transact (completeEnabled Config.params s) (completePixel Config.params s) s := rfl
    _ = _ := by rw [(completeEnabled_iff ..).2 ⟨running, sound, ⟨rsp, hrsp⟩, hroom⟩, transact_true]

/-! ### A round in closed form -/

/-- The state after `k` pixels from `s` have been flagged, with `rest` as the turns left. -/
def State.ahead (s : State) (k : Nat) (rest : List Turn) : State :=
  { s with
    pixCount := s.pixCount + BitVec.ofNat 28 k
    sIn := s.sIn.drop k
    fOut := s.fOut ++ flagsAhead s k
    wsReq := none
    wsRsp := none
    wsHistory := s.wsHistory ++ requestsAhead s k
    draws := s.draws + k
    agenda := rest }

/-- The state with the `k`-th request from `s` on pending. -/
def State.askedAhead (s : State) (k : Nat) (rest : List Turn) : State :=
  { s.ahead k rest with sIn := s.sIn.drop (k + 1), wsReq := some (requestAhead s k) }

/-- The state before the answer to the `k`-th request from `s` on is evaluated. -/
def State.answeredAhead (s : State) (k : Nat) (rest : List Turn) : State :=
  { s.ahead k rest with
    sIn := s.sIn.drop (k + 1)
    wsRsp := some (answerAhead s k)
    wsHistory := s.wsHistory ++ requestsAhead s (k + 1)
    draws := s.draws + (k + 1) }

theorem requestsAhead_succ (s : State) (k : Nat) :
    requestsAhead s (k + 1) = requestsAhead s k ++ [requestAhead s k] := by
  simp [requestsAhead, List.range_succ]

theorem flagsAhead_succ (s : State) (k : Nat) : flagsAhead s (k + 1) = flagsAhead s k ++ [flagAhead s k] := by
  simp [flagsAhead, List.range_succ]

@[simp] theorem flagsAhead_length (s : State) (k : Nat) : (flagsAhead s k).length = k := by simp [flagsAhead]

/-- No pixel ahead is the state itself, its channel being empty. -/
theorem State.ahead_zero {s : State} (hreq : s.wsReq = none) (hrsp : s.wsRsp = none) : s.ahead 0 s.agenda = s := by
  cases s
  simp_all [State.ahead, flagsAhead, requestsAhead]

/-- With no wrap of PIX_COUNT, pixel after pixel is counted (R32). -/
theorem State.ahead_pixCount {s : State} {n k : Nat} (hcount : s.pixCount.toNat + n = frameSize s) (hk : k ≤ n)
    (rest : List Turn) : (s.ahead k rest).pixCount.toNat = s.pixCount.toNat + k := by
  have hsize := frameSize_lt s
  change (s.pixCount + BitVec.ofNat 28 k).toNat = _
  rw [BitVec.toNat_add, BitVec.toNat_ofNat, Nat.add_mod_mod, Nat.mod_eq_of_lt (by omega)]

/-- The flag of the `k`-th answer pushed and its pixel counted, one more pixel is ahead. -/
theorem State.ahead_succ (s : State) (k : Nat) (rest : List Turn) :
    { pushFlag (flagAhead s k) { s.answeredAhead k rest with wsRsp := none } with
      pixCount := (s.ahead k rest).pixCount + 1#28 } = s.ahead (k + 1) rest := by
  have hpix : s.pixCount + BitVec.ofNat 28 k + 1#28 = s.pixCount + BitVec.ofNat 28 (k + 1) := by
    rw [BitVec.ofNat_add, BitVec.add_assoc]
  simp only [State.ahead, State.answeredAhead, pushFlag, hpix, flagsAhead_succ, List.append_assoc]

/-! ### What a round does -/

/-- ISSUE asks for the window of the next pixel, the source answers and COMPLETE evaluates (R111-R113). -/
theorem run_round {s : State} {k : Nat} (running : s.busy = true) (sound : s.fault = false)
    (hk : k < s.sIn.length) (hroom : s.fOut.length + k < Config.params.outDepth) (rest : List Turn) :
    Host.Core.run core 3 (s.ahead k (.act .issue :: .act .answer :: .act .complete :: rest)) =
      .next (completePixel Config.params (s.answeredAhead k rest)) := by
  have hin : s.sIn.drop k = s.sIn.getD k false :: s.sIn.drop (k + 1) := by
    rw [List.drop_eq_getElem_cons hk, List.getD_eq_getElem _ _ hk]
  have hissue : step (s.ahead k (.act .issue :: .act .answer :: .act .complete :: rest)) =
      .next (s.askedAhead k (.act .answer :: .act .complete :: rest)) :=
    (step_act (a := .issue) rfl nofun).trans (exec_pixelIssue running sound rfl rfl hin)
  have hanswer : step (s.askedAhead k (.act .answer :: .act .complete :: rest)) =
      .next (s.answeredAhead k (.act .complete :: rest)) := by
    rw [step_act (a := .answer) rfl nofun, State.answeredAhead, requestsAhead_succ, ← List.append_assoc]
    exact exec_wsAnswer rfl
  have hcomplete : step (s.answeredAhead k (.act .complete :: rest)) =
      .next (completePixel Config.params (s.answeredAhead k rest)) :=
    (step_act (a := .complete) rfl nofun).trans (exec_pixelComplete running sound rfl
      (by simpa [State.answeredAhead, State.ahead] using hroom))
  exact (run_step hissue 2).trans ((run_step hanswer 1).trans (run_step hcomplete 0))

/-- An answer outside the window is recorded with cause 4 (R112). -/
theorem completePixel_answeredAhead_of_outside {s : State} {k : Nat} (hbad : offsetAheadOk s k = false)
    (rest : List Turn) : completePixel Config.params (s.answeredAhead k rest) =
      raiseFault .srcOffset ((answerAhead s k).startRow ++ (answerAhead s k).startCol)
        { s.answeredAhead k rest with wsRsp := none } := by
  have hoff : offsetOk Config.params (answerAhead s k).startRow.toNat (answerAhead s k).startCol.toNat = false := hbad
  simp only [completePixel, State.answeredAhead, hoff, Bool.false_eq_true, if_false]

/-- An answer inside the window gives its flag, and the frame completes on its last pixel (R112, R114). -/
theorem completePixel_answeredAhead_of_inside {s : State} {k : Nat} (hok : offsetAheadOk s k = true)
    {rest : List Turn} (hcount : (s.ahead k rest).pixCount.toNat = s.pixCount.toNat + k) :
    completePixel Config.params (s.answeredAhead k rest) =
      if s.pixCount.toNat + (k + 1) = frameSize s then completeFrame (s.ahead (k + 1) rest)
      else s.ahead (k + 1) rest := by
  have hoff : offsetOk Config.params (answerAhead s k).startRow.toNat (answerAhead s k).startCol.toNat = true := hok
  calc completePixel Config.params (s.answeredAhead k rest)
      = countPixel (pushFlag (flagAhead s k) { s.answeredAhead k rest with wsRsp := none }) := by
        simp only [completePixel, State.answeredAhead, hoff, if_true]
        rfl
    _ = if (s.ahead k rest).pixCount.toNat + 1 = frameSize s then completeFrame (s.ahead (k + 1) rest)
        else s.ahead (k + 1) rest := by
        rw [← State.ahead_succ]
        rfl
    _ = _ := by rw [hcount, Nat.add_assoc]

/-! ### A frame -/

section Frame

variable {s : State} {n : Nat} (running : s.busy = true) (sound : s.fault = false)
  (hcount : s.pixCount.toNat + n = frameSize s) (hsamples : n ≤ s.sIn.length)
  (hroom : s.fOut.length + n ≤ Config.params.outDepth)
include running sound hcount hsamples hroom

/-- Rounds whose answers lie inside the window, short of the frame's last, take one pixel each (R119). -/
theorem run_rounds_of_inside {k : Nat} (hk : k < n) (hok : ∀ j < k, offsetAheadOk s j = true) (m : Nat) :
    Host.Core.run core (3 * k) (s.ahead 0 (pixelRounds (k + m))) = .next (s.ahead k (pixelRounds m)) := by
  induction k generalizing m with
  | zero =>
    rw [Nat.zero_add]
    rfl
  | succ k ih =>
    have hbefore := ih (by omega) (fun j hj => hok j (by omega)) (m + 1)
    have hround := run_round running sound (k := k) (by omega) (by omega) (pixelRounds m)
    have hinner : s.pixCount.toNat + (k + 1) ≠ frameSize s := by omega
    rw [completePixel_answeredAhead_of_inside (hok k k.lt_succ_self) (s.ahead_pixCount hcount (by omega) _),
      if_neg hinner] at hround
    rw [Nat.add_right_comm]
    exact (run_add hbefore 3).trans hround

/-- With every answer inside the window, the last round completes the frame (R114, R120). -/
theorem run_frame_of_inside (hn : 0 < n) (hok : ∀ k < n, offsetAheadOk s k = true) :
    Host.Core.run core (3 * n) (s.ahead 0 (pixelRounds n)) = .next (completeFrame (s.ahead n [])) := by
  obtain ⟨k, rfl⟩ := Nat.exists_eq_add_one.2 hn
  have hbefore := run_rounds_of_inside running sound hcount hsamples hroom (k := k) (by omega)
    (fun j hj => hok j (by omega)) 1
  have hround := run_round running sound (k := k) (by omega) (by omega) []
  rw [completePixel_answeredAhead_of_inside (hok k k.lt_succ_self) (s.ahead_pixCount hcount (by omega) _),
    if_pos hcount] at hround
  exact (run_add hbefore 3).trans hround

/-- The first answer outside the window stops the frame at its pixel, and the rounds left are used up (R112, R132). -/
theorem run_frame_of_outside {k : Nat} (hk : k < n) (hok : ∀ j < k, offsetAheadOk s j = true)
    (hbad : offsetAheadOk s k = false) :
    Host.Core.run core (3 * n) (s.ahead 0 (pixelRounds n)) = .next
      (raiseFault .srcOffset ((answerAhead s k).startRow ++ (answerAhead s k).startCol)
        { s.answeredAhead k [] with wsRsp := none }) := by
  obtain ⟨m, rfl⟩ := Nat.exists_eq_add_of_lt hk
  have hbefore := run_rounds_of_inside running sound hcount hsamples hroom hk hok (m + 1)
  have hround := run_round running sound (k := k) (by omega) (by omega) (pixelRounds m)
  rw [completePixel_answeredAhead_of_outside hbad] at hround
  have hafter := run_rounds_of_faulted (s := raiseFault .srcOffset
    ((answerAhead s k).startRow ++ (answerAhead s k).startCol) { s.answeredAhead k [] with wsRsp := none }) rfl rfl m
  calc Host.Core.run core (3 * (k + m + 1)) (s.ahead 0 (pixelRounds (k + m + 1)))
      = Host.Core.run core (3 * k + (3 + 3 * m)) (s.ahead 0 (pixelRounds (k + (m + 1)))) := by
        rw [show 3 * (k + m + 1) = 3 * k + (3 + 3 * m) by omega, Nat.add_assoc]
    _ = Host.Core.run core (3 + 3 * m) (s.ahead k (pixelRounds (m + 1))) := run_add hbefore _
    _ = _ := (run_add hround _).trans hafter

end Frame

/-- Of the answers that are not all inside the window there is a first one outside. -/
theorem exists_first_outside {s : State} {n : Nat} (h : ¬ ∀ k < n, offsetAheadOk s k = true) :
    ∃ k < n, (∀ j < k, offsetAheadOk s j = true) ∧ offsetAheadOk s k = false := by
  have hex : ∃ k, k < n ∧ offsetAheadOk s k = false := by simpa using h
  obtain ⟨hk, hbad⟩ := Nat.find_spec hex
  refine ⟨Nat.find hex, hk, fun j hj => ?_, hbad⟩
  simpa [hj.trans hk] using Nat.find_min hex hj

/-- Settles O58: the rounds run to the frame's last pixel or to the first answer outside the window. -/
theorem frameCompletesWithOneFlagPerSample : Obligations.FrameCompletesWithOneFlagPerSample := by
  intro s n hinv running sound hreq hrsp hcount hsamples hroom hagenda
  have hstart : s.ahead 0 (pixelRounds n) = s := hagenda ▸ State.ahead_zero hreq hrsp
  by_cases hall : ∀ k < n, offsetAheadOk s k = true
  · have hn : 0 < n := by
      have hleft := hinv.busyCount running
      omega
    have hrun := run_frame_of_inside running sound hcount hsamples hroom hn hall
    rw [hstart] at hrun
    exact ⟨_, hrun, .inr ⟨hall, sound, rfl, rfl, (State.ahead_pixCount hcount le_rfl []).trans hcount, rfl, rfl, rfl,
      rfl, rfl⟩⟩
  · obtain ⟨k, hk, hok, hbad⟩ := exists_first_outside hall
    have hrun := run_frame_of_outside running sound hcount hsamples hroom hk hok hbad
    rw [hstart] at hrun
    exact ⟨_, hrun, .inl ⟨k, hk, hok, hbad, rfl, rfl, rfl, running, State.ahead_pixCount hcount hk.le [], rfl, rfl, rfl,
      rfl, rfl⟩⟩

end Sys2Proof.Machine

/-!
PROOFS. Command words (spec/30_encoding.md R68-R71, R74, R77): the encoder's words and the decoder undo each other on all
2^32 words, a reserved word faults, and the assembler writes the encoder's words.
-/

namespace Sys2Proof

/-! ### The words of the encoder decode to their commands -/

@[simp] theorem decodeCommand_frameStartWord (h w : BitVec 14) (win : Window) :
    decodeCommand (frameStartWord h w) win = .frameStart h w := by
  simp [decodeCommand]

@[simp] theorem decodeCommand_evalWord (row col : BitVec 14) (win : Window) :
    decodeCommand (evalWord row col) win = .eval row col win := by
  simp [decodeCommand]

@[simp] theorem decodeCommand_reservedOp0Word (x : BitVec 28) (win : Window) :
    decodeCommand (reservedOp0Word x) win = .reservedOp0 x := by
  simp [decodeCommand]

@[simp] theorem decodeCommand_reservedOp3Word (x : BitVec 28) (win : Window) :
    decodeCommand (reservedOp3Word x) win = .reservedOp3 x := by
  simp [decodeCommand]

/-- The opcodes whose top two bits are 01 are none of 0 to 3. -/
theorem opcode_ne_of_high_eq_one : ∀ op : BitVec 4, op.extractLsb' 2 2 = 1#2 →
    op ≠ 1#4 ∧ op ≠ 2#4 ∧ op ≠ 0#4 ∧ op ≠ 3#4 := by
  decide

/-- The opcodes whose top bit is 1 are none of 0 to 3, and their top two bits are not 01. -/
theorem opcode_ne_of_top_eq_one : ∀ op : BitVec 4, op.extractLsb' 3 1 = 1#1 →
    op ≠ 1#4 ∧ op ≠ 2#4 ∧ op ≠ 0#4 ∧ op ≠ 3#4 ∧ op.extractLsb' 2 2 ≠ 1#2 := by
  decide

/-- Every opcode that is none of 0 to 3 has the top bits 01 or the top bit 1. -/
theorem opcode_high_cases : ∀ op : BitVec 4, op ≠ 1#4 → op ≠ 2#4 → op ≠ 0#4 → op ≠ 3#4 →
    op.extractLsb' 2 2 = 1#2 ∨ op.extractLsb' 2 2 ≠ 1#2 ∧ op.extractLsb' 3 1 = 1#1 := by
  decide

@[simp] theorem decodeCommand_reservedOp4To7Word (x : BitVec 30) (win : Window) :
    decodeCommand (reservedOp4To7Word x) win = .reservedOp4To7 x := by
  have hhigh := opHigh_of_fieldOp (reservedOp4To7Word x)
  rw [opHigh_reservedOp4To7Word] at hhigh
  obtain ⟨h1, h2, h0, h3⟩ := opcode_ne_of_high_eq_one _ hhigh.symm
  simp [decodeCommand, h1, h2, h0, h3]

@[simp] theorem decodeCommand_reservedOp8ToFWord (x : BitVec 31) (win : Window) :
    decodeCommand (reservedOp8ToFWord x) win = .reservedOp8ToF x := by
  have htop := opTop_of_fieldOp (reservedOp8ToFWord x)
  rw [opHigh_reservedOp8ToFWord] at htop
  obtain ⟨h1, h2, h0, h3, hhigh⟩ := opcode_ne_of_top_eq_one _ htop.symm
  rw [← opHigh_of_fieldOp] at hhigh
  simp [decodeCommand, h1, h2, h0, h3, hhigh]

/-- Settles O17: each word is one of the encoder's, written out. -/
theorem specWordsDecode : Obligations.SpecWordsDecode := fun win =>
  ⟨decodeCommand_evalWord 2#14 2#14 win, decodeCommand_evalWord 4#14 4#14 win,
    decodeCommand_frameStartWord 1#14 2#14 win, decodeCommand_frameStartWord 64#14 64#14 win,
    decodeCommand_frameStartWord 4#14 0#14 win, decodeCommand_reservedOp0Word 0x0FFFFFFF#28 win,
    decodeCommand_reservedOp3Word 0#28 win, decodeCommand_reservedOp8ToFWord 0x70000000#31 win⟩

/-! ### Every word is the word of the command it decodes to -/

/-- A word is its opcode and the 28 bits below. -/
theorem fieldOp_append_operand (cmd : Word) : fieldOp cmd ++ cmd.extractLsb' 0 28 = cmd :=
  BitVec.extractLsb'_append_extractLsb'

/-- A word is its opcode and its two fields. -/
theorem fieldOp_append_fields (cmd : Word) : fieldOp cmd ++ fieldA cmd ++ fieldB cmd = cmd := by
  have hhigh : fieldOp cmd ++ fieldA cmd = cmd.extractLsb' 14 18 :=
    BitVec.extractLsb'_append_extractLsb'_eq_extractLsb' rfl
  rw [hhigh]
  exact BitVec.extractLsb'_append_extractLsb' (w := 18)

/-- A word whose opcode is 1 is FRAME_START's word of its fields (R69). -/
theorem frameStartWord_fields {cmd : Word} (hop : fieldOp cmd = 1#4) : frameStartWord (fieldA cmd) (fieldB cmd) = cmd := by
  rw [frameStartWord, ← hop]
  exact fieldOp_append_fields cmd

/-- A word whose opcode is 2 is EVAL's word of its fields (R70). -/
theorem evalWord_fields {cmd : Word} (hop : fieldOp cmd = 2#4) : evalWord (fieldA cmd) (fieldB cmd) = cmd := by
  rw [evalWord, ← hop]
  exact fieldOp_append_fields cmd

/-- Every other word is the word of one of the four reserved rows (R71). -/
theorem reservedWord_cases {cmd : Word} (h1 : fieldOp cmd ≠ 1#4) (h2 : fieldOp cmd ≠ 2#4) :
    (∃ x, reservedOp0Word x = cmd) ∨ (∃ x, reservedOp3Word x = cmd) ∨ (∃ x, reservedOp4To7Word x = cmd) ∨
    (∃ x, reservedOp8ToFWord x = cmd) := by
  by_cases h0 : fieldOp cmd = 0#4
  · exact .inl ⟨_, h0 ▸ fieldOp_append_operand cmd⟩
  by_cases h3 : fieldOp cmd = 3#4
  · exact .inr (.inl ⟨_, h3 ▸ fieldOp_append_operand cmd⟩)
  have hhigh : cmd.extractLsb' 30 2 ++ cmd.extractLsb' 0 30 = cmd := BitVec.extractLsb'_append_extractLsb'
  have htop : cmd.extractLsb' 31 1 ++ cmd.extractLsb' 0 31 = cmd := BitVec.extractLsb'_append_extractLsb'
  rw [opHigh_of_fieldOp] at hhigh
  rw [opTop_of_fieldOp] at htop
  rcases opcode_high_cases _ h1 h2 h0 h3 with h | h
  · exact .inr (.inr (.inl ⟨_, h ▸ hhigh⟩))
  · exact .inr (.inr (.inr ⟨_, h.2 ▸ htop⟩))

/-- Settles O16: the opcode picks the command, and a reserved word is the word of its row, which decodes to that row. -/
theorem decodeFollowsOpcode : Obligations.DecodeFollowsOpcode := by
  intro cmd win
  refine ⟨fun h1 => ?_, fun h2 => ?_, fun h1 h2 => ?_⟩
  · exact if_pos h1
  · simp [decodeCommand, h2, fieldA, fieldB]
  · rcases reservedWord_cases h1 h2 with ⟨x, rfl⟩ | ⟨x, rfl⟩ | ⟨x, rfl⟩ | ⟨x, rfl⟩ <;> simp

/-- Settles O19: each word is the encoder's word of its fields or of a reserved row, and so comes back. -/
theorem decodeThenEncodeWord : Obligations.DecodeThenEncodeWord := by
  intro cmd win
  by_cases h1 : fieldOp cmd = 1#4
  · rw [← frameStartWord_fields h1, decodeCommand_frameStartWord, commandWord]
  by_cases h2 : fieldOp cmd = 2#4
  · rw [← evalWord_fields h2, decodeCommand_evalWord, commandWord]
  rcases reservedWord_cases h1 h2 with ⟨x, rfl⟩ | ⟨x, rfl⟩ | ⟨x, rfl⟩ | ⟨x, rfl⟩ <;> simp [commandWord]

/-! ### A reserved command faults -/

namespace Machine

/-- The command step as one next state: its effect without the offer when the port is ready, a hold when not (R117). -/
theorem commandStep_eq (effect : State → State) (s : State) : commandStep effect s =
    .next (if s.busy = false ∧ s.fault = false then effect (takeOffer s) else s) := by
  simp only [commandStep, transact, commandReady_iff]

/-- A command whose opcode is neither 1 nor 2 raises cause 1 with its word, in the command step (R71, R117). -/
theorem exec_of_reserved {i : Instr} {cmd : Word} (hword : commandWord i = some cmd) (h1 : fieldOp cmd ≠ 1#4)
    (h2 : fieldOp cmd ≠ 2#4) (s : State) : exec i s = commandStep (raiseFault .cmdReserved cmd) s := by
  cases i <;> cases hword
  case frameStart => exact absurd (fieldOp_frameStartWord ..) h1
  case eval => exact absurd (fieldOp_evalWord ..) h2
  all_goals rfl

/-- Accepted, it answers the state with cause 1 and its word recorded, and without the offer (R71, R130). -/
theorem exec_of_reserved_of_ready {i : Instr} {cmd : Word} (hword : commandWord i = some cmd) (h1 : fieldOp cmd ≠ 1#4)
    (h2 : fieldOp cmd ≠ 2#4) {s : State} (hbusy : s.busy = false) (hfault : s.fault = false) : exec i s = .next
      { s with cmdOffer := none, fault := true, faultCause := .cmdReserved, faultInfo := cmd } :=
  (exec_of_reserved hword h1 h2 s).trans (commandStep_of_ready hbusy hfault)

/-- Settles O4: the four rows' opcodes are neither 1 nor 2, and a word is the word of what it decodes to. -/
theorem reservedCommandsFault : Obligations.ReservedCommandsFault := by
  refine ⟨fun x s => ?_, fun x s => ?_, fun x s => ?_, fun x s => ?_, fun cmd win s h1 h2 => ?_⟩
  · exact exec_of_reserved_of_ready rfl (by simp) (by simp)
  · exact exec_of_reserved_of_ready rfl (by simp) (by simp)
  · exact exec_of_reserved_of_ready rfl (fieldOp_reservedOp4To7Word_ne x).1 (fieldOp_reservedOp4To7Word_ne x).2
  · exact exec_of_reserved_of_ready rfl (fieldOp_reservedOp8ToFWord_ne x).1 (fieldOp_reservedOp8ToFWord_ne x).2
  · exact (exec_of_reserved (decodeThenEncodeWord cmd win) h1 h2 s).trans (commandStep_eq _ s)

/-! ### The assembler's words (R77) -/

/-- An opcode and two fields or-ed together at their bits are the word of the three. -/
theorem ofNat_or_fields (op : BitVec 4) {a b : Nat} (ha : a < 2 ^ 14) (hb : b < 2 ^ 14) :
    BitVec.ofNat 32 ((op.toNat <<< 28) ||| (a <<< 14) ||| b) = op ++ BitVec.ofNat 14 a ++ BitVec.ofNat 14 b := by
  have hword : (op ++ BitVec.ofNat 14 a ++ BitVec.ofNat 14 b).toNat = (op.toNat <<< 28) ||| (a <<< 14) ||| b := by
    simp only [BitVec.toNat_append, BitVec.toNat_ofNat, Nat.mod_eq_of_lt ha, Nat.mod_eq_of_lt hb,
      Nat.shiftLeft_or_distrib, ← Nat.shiftLeft_add]
  rw [← hword, BitVec.ofNat_toNat, BitVec.setWidth_eq]

/-- Settles O22: in range the or-ed numbers are the word of their fields, and out of range the guard refuses. -/
theorem assemblerMatchesEncoder : Obligations.AssemblerMatchesEncoder := by
  refine ⟨fun w h hw hw' hh hh' => ?_, fun w h hout => ?_, fun r c bits hr hc => ?_, fun r c bits hout => ?_⟩
  · have hword := ofNat_or_fields 1#4 (Nat.lt_succ_of_le hh') (Nat.lt_succ_of_le hw')
    rw [assembleFrame, if_pos ⟨hw, hw', hh, hh'⟩]
    exact congrArg (fun cmd => some (Action.command ⟨cmd, 0⟩)) hword
  · exact if_neg (by omega)
  · have hword := ofNat_or_fields 2#4 (Nat.lt_succ_of_le hr) (Nat.lt_succ_of_le hc)
    rw [assembleEval, if_pos ⟨hr, hc⟩]
    exact congrArg (fun cmd => some (Action.command ⟨cmd, bits⟩)) hword
  · exact if_neg (by omega)

end Machine

end Sys2Proof

/-!
PROOFS. The WINDOW layout (spec/30_encoding.md R67): a window's cells are the base 2^CELL_BITS digits of its pattern. From
it, that encoding loses nothing of a transaction, and the packed window-source channel (R72, R73) nothing of a message.
-/

namespace Sys2Proof

/-! ### Cells in a pattern (R67) -/

/-- Packed cells are digits in base 2 ^ CELL_BITS, the least significant first. -/
theorem packCells_eq_ofDigits (b : Nat) (cells : List Cell) : packCells b cells = Nat.ofDigits (2 ^ b) cells := by
  induction cells with
  | nil => rfl
  | cons v vs ih => rw [packCells, ih, Nat.ofDigits_cons]

/-- The n-th field of packed cells is the n-th cell. -/
theorem packCells_field {b : Nat} {cells : List Cell} (h : ∀ v ∈ cells, v < 2 ^ b) {n : Nat} (hn : n < cells.length) :
    packCells b cells / 2 ^ (n * b) % 2 ^ b = cells[n] := by
  rw [packCells_eq_ofDigits, Nat.mul_comm, pow_mul, Nat.ofDigits_div_pow_eq_ofDigits_drop n (Nat.two_pow_pos b) cells h,
    List.drop_eq_getElem_cons hn, Nat.ofDigits_cons, Nat.add_mul_mod_self_left,
    Nat.mod_eq_of_lt (h _ (List.getElem_mem hn))]

/-- Packing a pattern's first n fields gives its low n * CELL_BITS bits. -/
theorem packCells_fields (b n bits : Nat) :
    packCells b ((List.range n).map fun i => bits / 2 ^ (i * b) % 2 ^ b) = bits % 2 ^ (n * b) := by
  induction n generalizing bits with
  | zero => simp [packCells, Nat.mod_one]
  | succ n ih =>
    have hfield (i : Nat) : bits / 2 ^ ((i + 1) * b) % 2 ^ b = bits / 2 ^ b / 2 ^ (i * b) % 2 ^ b := by
      rw [Nat.succ_mul, Nat.add_comm, pow_add, Nat.div_div_eq_div_mul]
    simp only [List.range_succ_eq_map, List.map_cons, List.map_map, Function.comp_def, packCells, Nat.succ_eq_add_one,
      hfield, ih (bits / 2 ^ b), Nat.zero_mul, pow_zero, Nat.div_one]
    rw [← Nat.mod_mul, ← pow_add, Nat.succ_mul, Nat.add_comm]

/-! ### A window's pattern (R67) -/

/-- In raster order with n cells to a row, cell (r, c) is the one numbered r * n + c. -/
theorem raster_div_mod {n c : Nat} (hc : c < n) (r : Nat) : (r * n + c) / n = r ∧ (r * n + c) % n = c := by
  refine ⟨?_, Nat.mul_add_mod_of_lt hc⟩
  rw [Nat.mul_comm, Nat.mul_add_div (by omega), Nat.div_eq_of_lt hc, Nat.add_zero]

/-- Rows of n cells one after another, by the number of the cell. -/
theorem flatten_map_range {α : Type} (f : Nat → Nat → α) (m n : Nat) :
    ((List.range m).map fun r => (List.range n).map (f r)).flatten =
      (List.range (m * n)).map fun i => f (i / n) (i % n) := by
  induction m with
  | zero => simp
  | succ m ih =>
    have hlast : (List.range n).map (f m) = (List.range n).map fun c => f ((m * n + c) / n) ((m * n + c) % n) := by
      refine List.map_congr_left fun c hc => ?_
      obtain ⟨hdiv, hmod⟩ := raster_div_mod (List.mem_range.1 hc) m
      rw [hdiv, hmod]
    rw [List.range_succ, List.map_append, List.flatten_append, ih, Nat.succ_mul, List.range_add, List.map_append,
      List.map_map, List.map_singleton, List.flatten_singleton, hlast]
    rfl

/-- A shaped window has its rows, its cells in each, and CELL_BITS bits in every cell (R46). -/
theorem Window.shaped_iff {cfg : Params} {win : Window} : win.shaped cfg = true ↔
    win.rows.length = cfg.winH ∧ (∀ row ∈ win.rows, row.length = cfg.winW) ∧
      ∀ row ∈ win.rows, ∀ v ∈ row, v < 2 ^ cfg.cellBits := by
  simp [Window.shaped, Window.rowCountOk, Window.rowLengthsOk, Window.cellsOk, and_assoc]

/-- A shaped window is the one built from its own cells. -/
theorem Window.ofFn_cell {cfg : Params} {win : Window} (h : win.shaped cfg = true) :
    Window.ofFn cfg win.cell = win := by
  obtain ⟨hrows, hlengths, -⟩ := Window.shaped_iff.1 h
  have hsame : (Window.ofFn cfg win.cell).rows = win.rows := by
    refine List.ext_getElem (by simp [Window.ofFn, hrows]) fun r _ hr => ?_
    have hlength := hlengths _ (List.getElem_mem hr)
    refine List.ext_getElem (by simp [Window.ofFn, hlength]) fun c _ hc => ?_
    simp [Window.ofFn, Window.cell, hr, hc]
  exact congrArg Window.mk hsame

/-- A shaped window reads CELL_BITS bits at every pair of indices: inside it a cell, outside it 0 (R46; log entry 16). -/
theorem Window.cell_lt {cfg : Params} {win : Window} (h : win.shaped cfg = true) (r c : Nat) :
    win.cell r c < 2 ^ cfg.cellBits := by
  obtain ⟨-, -, hcells⟩ := Window.shaped_iff.1 h
  by_cases hr : r < win.rows.length
  · by_cases hc : c < win.rows[r].length
    · simpa [Window.cell, hr, hc] using hcells _ (List.getElem_mem hr) _ (List.getElem_mem hc)
    · simp [Window.cell, hr, hc]
  · simp [Window.cell, hr]

theorem Window.toBits_ofFn (cfg : Params) (f : Nat → Nat → Cell) : (Window.ofFn cfg f).toBits cfg =
    packCells cfg.cellBits ((List.range (cfg.winH * cfg.winW)).map fun i => f (i / cfg.winW) (i % cfg.winW)) :=
  congrArg (packCells cfg.cellBits) (flatten_map_range f cfg.winH cfg.winW)

/-- Decoding a pattern and packing its window keeps the bits of the format's length and drops those above. -/
theorem Window.toBits_ofBits (cfg : Params) (bits : Nat) :
    (Window.ofBits cfg bits).toBits cfg = bits % 2 ^ (cfg.winH * cfg.winW * cfg.cellBits) := by
  rw [Window.ofBits, Window.toBits_ofFn, ← packCells_fields]
  simp only [windowField, Nat.div_add_mod']

/-- A shaped window's pattern holds each cell in its field. -/
theorem Window.windowField_toBits {cfg : Params} {win : Window} (h : win.shaped cfg = true) {r c : Nat}
    (hr : r < cfg.winH) (hc : c < cfg.winW) : windowField cfg (win.toBits cfg) r c = win.cell r c := by
  obtain ⟨hdiv, hmod⟩ := raster_div_mod hc r
  have hindex : r * cfg.winW + c < cfg.winH * cfg.winW :=
    calc r * cfg.winW + c < (r + 1) * cfg.winW := by rw [Nat.succ_mul]; omega
      _ ≤ cfg.winH * cfg.winW := Nat.mul_le_mul_right _ hr
  have hpattern := Window.toBits_ofFn cfg win.cell
  rw [Window.ofFn_cell h] at hpattern
  rw [windowField, hpattern, packCells_field (by simp [Window.cell_lt h]) (by simpa using hindex)]
  simp [hdiv, hmod]

/-- A shaped window comes back from its pattern. -/
theorem Window.ofBits_toBits {cfg : Params} {win : Window} (h : win.shaped cfg = true) :
    Window.ofBits cfg (win.toBits cfg) = win := by
  have hcells : Window.ofFn cfg (windowField cfg (win.toBits cfg)) = Window.ofFn cfg win.cell := by
    refine congrArg Window.mk (List.map_congr_left fun r hr => List.map_congr_left fun c hc => ?_)
    exact Window.windowField_toBits h (List.mem_range.1 hr) (List.mem_range.1 hc)
  exact hcells.trans (Window.ofFn_cell h)

/-- A shaped window's pattern stays within the format's length. -/
theorem Window.toBits_lt {cfg : Params} {win : Window} (h : win.shaped cfg = true) :
    win.toBits cfg < 2 ^ (cfg.winH * cfg.winW * cfg.cellBits) := by
  have hmod := Window.toBits_ofBits cfg (win.toBits cfg)
  rw [Window.ofBits_toBits h] at hmod
  exact hmod ▸ Nat.mod_lt _ (Nat.two_pow_pos _)

/-- Settles O20: a decoded cell is its field, and packing the fields of a short enough pattern gives it back. -/
theorem windowFormatIsExact : Obligations.WindowFormatIsExact := fun cfg bits =>
  ⟨fun _ _ hr hc => Window.cell_ofBits cfg bits hr hc, Window.shaped_ofBits cfg bits,
    fun hbits => (Window.toBits_ofBits cfg bits).trans (Nat.mod_eq_of_lt hbits)⟩

/-- Settles O18: a command's word decodes to it, with EVAL's window back from its pattern; the rest has no word. -/
theorem encodeThenDecode : Obligations.EncodeThenDecode := by
  intro cfg i hwf
  cases i with
  | frameStart h w => exact decodeCommand_frameStartWord h w _
  | eval row col win =>
    calc decode cfg (encode cfg (.eval row col win))
        = .eval row col (Window.ofBits cfg (win.toBits cfg)) := decodeCommand_evalWord row col _
      _ = .eval row col win := by rw [Window.ofBits_toBits hwf]
  | reservedOp0 x => exact decodeCommand_reservedOp0Word x _
  | reservedOp3 x => exact decodeCommand_reservedOp3Word x _
  | reservedOp4To7 x => exact decodeCommand_reservedOp4To7Word x _
  | reservedOp8ToF x => exact decodeCommand_reservedOp8ToFWord x _
  | _ => rfl

/-! ### The window-source channel (R72, R73) -/

namespace Machine

/-- A packed request's fields stand at the rule's bits (R72). -/
theorem packWsRequest_fields (q : WsRequest) :
    (packWsRequest q).extractLsb' 0 28 = q.p ∧ (packWsRequest q).extractLsb' 28 14 = q.row ∧
    (packWsRequest q).extractLsb' 42 14 = q.col ∧ (packWsRequest q).getLsbD 56 = q.s := by
  refine ⟨BitVec.extractLsb'_append_eq_right, ?_, ?_, ?_⟩
  · rw [packWsRequest, BitVec.extractLsb'_append_eq_of_le le_rfl]
    exact BitVec.extractLsb'_append_eq_right
  · rw [packWsRequest, BitVec.extractLsb'_append_eq_of_le (by decide), BitVec.extractLsb'_append_eq_of_le le_rfl]
    exact BitVec.extractLsb'_append_eq_right
  · simp only [packWsRequest, BitVec.getLsbD_append]
    simp

theorem unpackWsRequest_packWsRequest (q : WsRequest) : unpackWsRequest (packWsRequest q) = q := by
  obtain ⟨hp, hrow, hcol, hs⟩ := packWsRequest_fields q
  rw [unpackWsRequest, hp, hrow, hcol, hs]

/-- The four fields of R72 leave no bit of a WSREQ word out. -/
theorem packWsRequest_unpackWsRequest (w : BitVec 57) : packWsRequest (unpackWsRequest w) = w := by
  have hs : BitVec.ofBool (w.getLsbD 56) = w.extractLsb' 56 1 :=
    BitVec.eq_of_getLsbD_eq fun i hi => by
      interval_cases i
      simp
  have hcol : w.extractLsb' 56 1 ++ w.extractLsb' 42 14 = w.extractLsb' 42 15 :=
    BitVec.extractLsb'_append_extractLsb'_eq_extractLsb' rfl
  have hrow : w.extractLsb' 42 15 ++ w.extractLsb' 28 14 = w.extractLsb' 28 29 :=
    BitVec.extractLsb'_append_extractLsb'_eq_extractLsb' rfl
  have hp : w.extractLsb' 28 29 ++ w.extractLsb' 0 28 = w := BitVec.extractLsb'_append_extractLsb' (w := 29)
  calc packWsRequest (unpackWsRequest w)
      = BitVec.ofBool (w.getLsbD 56) ++ w.extractLsb' 42 14 ++ w.extractLsb' 28 14 ++ w.extractLsb' 0 28 := rfl
    _ = w := by rw [hs, hcol, hrow, hp]

/-- The two offsets of a packed response, and its window above them (R73). -/
theorem packWsResponse_fields (cfg : Params) (rsp : WsResponse) :
    packWsResponse cfg rsp % 2 ^ 16 = rsp.startCol.toNat ∧
    packWsResponse cfg rsp / 2 ^ 16 % 2 ^ 16 = rsp.startRow.toNat ∧
    packWsResponse cfg rsp / 2 ^ 32 = rsp.win.toBits cfg := by
  have hcol := rsp.startCol.isLt
  have hrow := rsp.startRow.isLt
  rw [packWsResponse]
  omega

/-- A packed response has 32 bits more than its window's format (R73). -/
theorem packWsResponse_lt {cfg : Params} {rsp : WsResponse} (h : rsp.win.shaped cfg = true) :
    packWsResponse cfg rsp < 2 ^ (32 + cfg.winH * cfg.winW * cfg.cellBits) := by
  rw [Nat.add_comm, pow_add, ← Nat.div_lt_iff_lt_mul (Nat.two_pow_pos 32), (packWsResponse_fields cfg rsp).2.2]
  exact Window.toBits_lt h

/-- A packed response comes back as the answer it packs, its window decoded (R73, R113). -/
theorem decodeAnswer_packWsResponse {cfg : Params} {rsp : WsResponse} (h : rsp.win.shaped cfg = true) :
    decodeAnswer cfg (unpackWsAnswer (packWsResponse cfg rsp)) = rsp := by
  obtain ⟨hcol, hrow, hwin⟩ := packWsResponse_fields cfg rsp
  have hcol' : BitVec.ofNat 16 (packWsResponse cfg rsp) = rsp.startCol := BitVec.eq_of_toNat_eq hcol
  have hrow' : BitVec.ofNat 16 (packWsResponse cfg rsp / 2 ^ 16) = rsp.startRow := BitVec.eq_of_toNat_eq hrow
  rw [unpackWsAnswer, decodeAnswer, hcol', hrow', hwin, Window.ofBits_toBits h]

/-- Settles O21: the request from its four fields, the answer from its offsets and the WINDOW format above them. -/
theorem wsChannelFormatsRoundTrip : Obligations.WsChannelFormatsRoundTrip := by
  refine ⟨packWsRequest_fields, fun cfg rsp h => ?_, unpackWsRequest_packWsRequest, packWsRequest_unpackWsRequest,
    fun _ _ => decodeAnswer_packWsResponse⟩
  obtain ⟨hcol, hrow, hwin⟩ := packWsResponse_fields cfg rsp
  refine ⟨hcol, hrow, hwin, packWsResponse_lt h, fun r c hr hc => ?_⟩
  rw [pow_add, ← Nat.div_div_eq_div_mul, hwin]
  exact Window.windowField_toBits h hr hc

end Machine

end Sys2Proof

/-!
PROOFS. Fixed-point numerics and the kernel table (spec/40_fixed_point.md R83-R93): words as integers modulo 2^16, the
accumulator as one wrapped integer sum, and the bounds that keep that sum inside a word.
-/

namespace Sys2Proof

namespace Machine

/-! ### Words as integers modulo 2^16 -/

/-- The integer of a wrapped integer is its balanced remainder (R12, R13). -/
theorem sint16_wrap16 (x : Int) : sint16 (wrap16 x) = Int.bmod x (2 ^ 16) := BitVec.toInt_ofInt x

/-- An integer in the range of a word survives wrapping (R13). -/
theorem sint16_wrap16_of_range {x : Int} (hlo : -32768 ≤ x) (hhi : x ≤ 32767) : sint16 (wrap16 x) = x := by
  rw [sint16_wrap16, Int.bmod_eq_of_le] <;> omega

/-- A word's integer is in the range of the type (R12). -/
theorem sint16_range (v : Fx) : -32768 ≤ sint16 v ∧ sint16 v ≤ 32767 :=
  ⟨BitVec.le_toInt v, Int.le_of_lt_add_one (BitVec.toInt_lt (x := v))⟩

/-- Wrapping a word's integer gives the word back (R12, R13). -/
theorem wrap16_sint16 (v : Fx) : wrap16 (sint16 v) = v := BitVec.ofInt_toInt

/-- FX_ADD is the addition of words, which is addition modulo 2^16 (R83). -/
theorem fxAdd_eq_add (a b : Fx) : fxAdd a b = a + b := by
  rw [fxAdd, wrap16, BitVec.ofInt_add, ← wrap16, ← wrap16, wrap16_sint16, wrap16_sint16]

/-- Wrapping turns integer addition into FX_ADD (R83). -/
theorem wrap16_add (x y : Int) : wrap16 (x + y) = fxAdd (wrap16 x) (wrap16 y) := by
  rw [fxAdd_eq_add, wrap16, BitVec.ofInt_add, wrap16, wrap16]

/-- Adding the zero word changes nothing (R83). -/
theorem fxAdd_zero (a : Fx) : fxAdd a 0#16 = a := by
  rw [fxAdd_eq_add, BitVec.add_zero]

/-- Settles O26: FX_ADD is the addition of words, so its laws are those of addition modulo 2^16. -/
theorem fxAddWraps : Obligations.FxAddWraps := by
  refine ⟨fun a b => sint16_wrap16 _, fxAdd_zero, fun a b => ?_, fun a b c => ?_, by decide, by decide⟩
  · rw [fxAdd_eq_add, fxAdd_eq_add, BitVec.add_comm]
  · simp only [fxAdd_eq_add, BitVec.add_assoc]

/-! ### The comparator -/

/-- FX_GE compares the integers of its words (R84). -/
theorem fxGe_iff (a t : Fx) : fxGe a t = true ↔ sint16 t ≤ sint16 a := decide_eq_true_iff

/-- FX_GE is 0 exactly when the first word lies below the second (R84). -/
theorem fxGe_eq_false_iff (a t : Fx) : fxGe a t = false ↔ sint16 a < sint16 t := by
  rw [← Bool.not_eq_true, fxGe_iff, not_le]

/-- THRESH is 8028 (R89). -/
theorem sint16_thresh : sint16 thresh = 8028 := by decide

/-- Above the least word, one unit less is the integer one less (R84). -/
theorem sint16_sub_one {t : Fx} (ht : t ≠ 0x8000#16) : sint16 (t - 1#16) = sint16 t - 1 := by
  have hmin : sint16 t ≠ -32768 := fun h => ht (BitVec.eq_of_toInt_eq h)
  obtain ⟨hlo, hhi⟩ := sint16_range t
  calc sint16 (t - 1#16)
      = Int.bmod (sint16 t - 1) (2 ^ 16) := BitVec.toInt_sub
    _ = sint16 (wrap16 (sint16 t - 1)) := (sint16_wrap16 _).symm
    _ = sint16 t - 1 := sint16_wrap16_of_range (by omega) (by omega)

/-- Settles O27: each corner case compares two integers: equal ones, neighbours, or a negative one and 8028. -/
theorem fxGeSignedInclusive : Obligations.FxGeSignedInclusive := by
  refine ⟨fxGe_iff, fun a => (fxGe_iff a a).2 le_rfl, fun t ht => ?_, fun a ha => ?_, by decide, by decide,
    by decide⟩
  · rw [fxGe_eq_false_iff, sint16_sub_one ht]
    omega
  · rw [fxGe_eq_false_iff, sint16_thresh]
    omega

/-- An evaluation's flag is the comparison of the accumulator's integer with that of THRESH (R84, R100). -/
theorem evalWindow_iff (cfg : Params) (win : Window) (r0 c0 : Nat) :
    evalWindow cfg win r0 c0 = true ↔ sint16 thresh ≤ sint16 (accumulator cfg win r0 c0) := fxGe_iff ..

/-! ### The kernel table -/

/-- An index and its mirror image have the same distance from the nearer edge. -/
theorem min_rev_eq (i : KIdx) : min i.rev.val (4 - i.rev.val) = min i.val (4 - i.val) := by
  rw [Fin.val_rev]
  omega

/-- The table is row-symmetric (R86). -/
@[simp] theorem kernelInt_rev_left (k : KernelTable) (i j : KIdx) : kernelInt k i.rev j = kernelInt k i j := by
  rw [kernelInt, min_rev_eq, kernelInt]

/-- The table is column-symmetric (R86). -/
@[simp] theorem kernelInt_rev_right (k : KernelTable) (i j : KIdx) : kernelInt k i j.rev = kernelInt k i j := by
  rw [kernelInt, min_rev_eq, kernelInt]

/-- Settles O28: the table is its quadrant read at the distances from the nearer edges, which mirroring keeps. -/
theorem kernelTableSymmetric : Obligations.KernelTableSymmetric :=
  fun _ => ⟨rfl, fun i j => by simp only [kRead, kernelInt_rev_left, kernelInt_rev_right, and_self]⟩

/-- A sum over the table counts each coefficient as often as the written-out table has it (R86). -/
theorem sum_kernelInt (k : KernelTable) (f : Int → Int) :
    ∑ ij : KIdx × KIdx, f (kernelInt k ij.1 ij.2) =
      f k.kc + 4 * f k.ko + 4 * f k.k11 +
        (4 * f k.k00 + 4 * f k.k01 + 2 * f k.k02 + 4 * f k.k10 + 2 * f k.k20) := by
  simp only [Fintype.sum_prod_type, Fin.sum_univ_five]
  change
    (f k.k00 + f k.k01 + f k.k02 + f k.k01 + f k.k00) +
    (f k.k10 + f k.k11 + f k.ko + f k.k11 + f k.k10) +
    (f k.k20 + f k.ko + f k.kc + f k.ko + f k.k20) +
    (f k.k10 + f k.k11 + f k.ko + f k.k11 + f k.k10) +
    (f k.k00 + f k.k01 + f k.k02 + f k.k01 + f k.k00) = _
  ring

/-- S_ALL is the sum of all 25 entries (R93). -/
theorem sum_kernelInt_eq_sAll (k : KernelTable) : ∑ ij : KIdx × KIdx, kernelInt k ij.1 ij.2 = k.sAll := by
  have hsum := sum_kernelInt k id
  simp only [id] at hsum
  rw [hsum, KernelTable.sAll]
  ring

/-! ### The checks of a configuration -/

/-- Settles O29: the three checks bound each positive coefficient. -/
theorem positiveSumAlwaysFits : Obligations.PositiveSumAlwaysFits := by
  intro p hcenter horth hpeak
  have hkc : p.kernel.kc ≤ 5214 := (of_decide_eq_true hcenter).2
  have hko : p.kernel.ko ≤ 1513 := (of_decide_eq_true horth).2
  have hk11 : p.kernel.k11 ≤ p.kernel.kc := of_decide_eq_true hpeak
  have hsum : p.kernel.posSum ≤ 32122 := by
    rw [KernelTable.posSum]
    omega
  exact ⟨hsum, hsum.trans (by decide)⟩

section Admissible

variable {cfg : Params} (hadm : cfg.admissible = true)
include hadm

/-- The centre and its ring are positive (WF_CENTER and WF_INNER_POS of R88). -/
theorem inner_pos : 0 < cfg.kernel.kc ∧ 0 < cfg.kernel.ko ∧ 0 < cfg.kernel.k11 := by
  have hcenter := of_decide_eq_true (Params.passes_of_admissible hadm (c := .wfCenter) (by decide))
  have hinner := of_decide_eq_true (Params.passes_of_admissible hadm (c := .wfInnerPos) (by decide))
  exact ⟨by omega, hinner.2, hinner.1⟩

/-- The outer ring is negative (WF_OUTER_NEG of R88). -/
theorem outer_neg : cfg.kernel.k00 < 0 ∧ cfg.kernel.k01 < 0 ∧ cfg.kernel.k02 < 0 ∧ cfg.kernel.k10 < 0 ∧
    cfg.kernel.k20 < 0 :=
  of_decide_eq_true (Params.passes_of_admissible hadm (c := .wfOuterNeg) (by decide))

/-- The sums of all negative and of all positive entries lie in the range of a word (WF_NO_OVERFLOW of R88). -/
theorem sums_in_range : -32768 ≤ cfg.kernel.negSum ∧ cfg.kernel.posSum ≤ 32767 :=
  of_decide_eq_true (Params.passes_of_admissible hadm (c := .wfNoOverflow) (by decide))

/-- The positive parts of the entries sum to the sum of all positive entries (R88). -/
theorem sum_max_kernelInt : ∑ ij : KIdx × KIdx, max (kernelInt cfg.kernel ij.1 ij.2) 0 = cfg.kernel.posSum := by
  obtain ⟨hkc, hko, hk11⟩ := inner_pos hadm
  obtain ⟨hk00, hk01, hk02, hk10, hk20⟩ := outer_neg hadm
  rw [sum_kernelInt _ (max · 0), KernelTable.posSum]
  omega

/-- The negative parts of the entries sum to the sum of all negative entries (R88). -/
theorem sum_min_kernelInt : ∑ ij : KIdx × KIdx, min (kernelInt cfg.kernel ij.1 ij.2) 0 = cfg.kernel.negSum := by
  obtain ⟨hkc, hko, hk11⟩ := inner_pos hadm
  obtain ⟨hk00, hk01, hk02, hk10, hk20⟩ := outer_neg hadm
  rw [sum_kernelInt _ (min · 0), KernelTable.negSum]
  omega

end Admissible

/-! ### The accumulator as one wrapped sum -/

section Accumulator

variable (cfg : Params) (win : Window) (r0 c0 : Nat)

/-- What a kernel position adds to the exact sum: its coefficient when its cell is lit (R85). -/
def litTerm (ij : KIdx × KIdx) : Int := if litAt cfg win r0 c0 ij.1 ij.2 then kernelInt cfg.kernel ij.1 ij.2 else 0

/-- The exact sum is the sum of the terms of its positions. -/
theorem exactSum_eq_sum_map (ps : List (KIdx × KIdx)) :
    exactSum cfg win r0 c0 ps = (ps.map (litTerm cfg win r0 c0)).sum := rfl

/-- A step of the evaluation adds the wrapped term of its position (R85). -/
theorem accStep_eq_fxAdd (acc : Fx) (ij : KIdx × KIdx) :
    accStep cfg win r0 c0 acc ij = fxAdd acc (wrap16 (litTerm cfg win r0 c0 ij)) := by
  rw [accStep, litTerm]
  split
  · rfl
  · exact (fxAdd_zero acc).symm

/-- From the wrap of any integer, the evaluation reaches the wrap of that integer and the exact sum. -/
theorem foldl_accStep_wrap16 (ps : List (KIdx × KIdx)) (x : Int) :
    ps.foldl (accStep cfg win r0 c0) (wrap16 x) = wrap16 (x + exactSum cfg win r0 c0 ps) := by
  induction ps generalizing x with
  | nil => rw [List.foldl_nil, exactSum_eq_sum_map, List.map_nil, List.sum_nil, Int.add_zero]
  | cons ij ps ih =>
    rw [List.foldl_cons, accStep_eq_fxAdd, ← wrap16_add, ih, exactSum_eq_sum_map, exactSum_eq_sum_map, List.map_cons,
      List.sum_cons, Int.add_assoc]

/-- In every configuration and order, ACC is the exact sum modulo 2^16 (R83, R100). -/
theorem accOver_eq_wrap16 (ps : List (KIdx × KIdx)) :
    accOver cfg win r0 c0 ps = wrap16 (exactSum cfg win r0 c0 ps) := by
  have hfold := foldl_accStep_wrap16 cfg win r0 c0 ps 0
  rwa [Int.zero_add] at hfold

variable {ps : List (KIdx × KIdx)} (hps : ps.Nodup)
include hps

/-- Over distinct positions the exact sum is a sum over a set of positions. -/
theorem exactSum_eq_sum_toFinset : exactSum cfg win r0 c0 ps = ∑ ij ∈ ps.toFinset, litTerm cfg win r0 c0 ij := by
  rw [exactSum_eq_sum_map, List.sum_toFinset _ hps]

/-- R90: over distinct positions the exact sum takes at most the positive part of every entry. -/
theorem exactSum_le : exactSum cfg win r0 c0 ps ≤ ∑ ij : KIdx × KIdx, max (kernelInt cfg.kernel ij.1 ij.2) 0 := by
  have hterm : ∀ ij, litTerm cfg win r0 c0 ij ≤ max (kernelInt cfg.kernel ij.1 ij.2) 0 := fun ij => by
    rw [litTerm]
    split
    · exact le_max_left ..
    · exact le_max_right ..
  calc exactSum cfg win r0 c0 ps
      = ∑ ij ∈ ps.toFinset, litTerm cfg win r0 c0 ij := exactSum_eq_sum_toFinset cfg win r0 c0 hps
    _ ≤ ∑ ij ∈ ps.toFinset, max (kernelInt cfg.kernel ij.1 ij.2) 0 := Finset.sum_le_sum fun ij _ => hterm ij
    _ ≤ ∑ ij : KIdx × KIdx, max (kernelInt cfg.kernel ij.1 ij.2) 0 :=
      Finset.sum_le_univ_sum_of_nonneg fun _ => le_max_right ..

/-- R90: over distinct positions the exact sum takes at least the negative part of every entry. -/
theorem le_exactSum : ∑ ij : KIdx × KIdx, min (kernelInt cfg.kernel ij.1 ij.2) 0 ≤ exactSum cfg win r0 c0 ps := by
  have hterm : ∀ ij, min (kernelInt cfg.kernel ij.1 ij.2) 0 ≤ litTerm cfg win r0 c0 ij := fun ij => by
    rw [litTerm]
    split
    · exact min_le_left ..
    · exact min_le_right ..
  calc ∑ ij : KIdx × KIdx, min (kernelInt cfg.kernel ij.1 ij.2) 0
      ≤ ∑ ij ∈ ps.toFinset, min (kernelInt cfg.kernel ij.1 ij.2) 0 :=
        Finset.sum_le_sum_of_subset_of_nonpos' (Finset.subset_univ _) fun _ _ _ => min_le_right ..
    _ ≤ ∑ ij ∈ ps.toFinset, litTerm cfg win r0 c0 ij := Finset.sum_le_sum fun ij _ => hterm ij
    _ = exactSum cfg win r0 c0 ps := (exactSum_eq_sum_toFinset cfg win r0 c0 hps).symm

end Accumulator

/-- Settles O31: the exact sum lies between the two sums of WF_NO_OVERFLOW, so wrapping it changes nothing. -/
theorem evalNeverOverflows : Obligations.EvalNeverOverflows := by
  intro cfg hadm win r0 c0 ps hps
  obtain ⟨hneg, hpos⟩ := sums_in_range hadm
  have hlo : cfg.kernel.negSum ≤ exactSum cfg win r0 c0 ps := sum_min_kernelInt hadm ▸ le_exactSum cfg win r0 c0 hps
  have hhi : exactSum cfg win r0 c0 ps ≤ cfg.kernel.posSum := sum_max_kernelInt hadm ▸ exactSum_le cfg win r0 c0 hps
  refine ⟨?_, hlo, hhi, hneg, hpos⟩
  rw [accOver_eq_wrap16, sint16_wrap16_of_range (hneg.trans hlo) (hhi.trans hpos)]

/-! ### The all-lit patch -/

/-- The 25 positions are distinct (R100). -/
theorem kernelPositions_nodup : kernelPositions.Nodup := by decide

/-- Every kernel position is among the 25 (R100). -/
theorem mem_kernelPositions (ij : KIdx × KIdx) : ij ∈ kernelPositions := by
  revert ij
  decide

/-- In an admissible configuration the integer of ACC is the exact sum over all positions (R90, R100). -/
theorem sint16_accumulator {cfg : Params} (hadm : cfg.admissible = true) (win : Window) (r0 c0 : Nat) :
    sint16 (accumulator cfg win r0 c0) = ∑ ij : KIdx × KIdx, litTerm cfg win r0 c0 ij := by
  have huniv : kernelPositions.toFinset = Finset.univ :=
    Finset.eq_univ_of_forall fun ij => List.mem_toFinset.2 (mem_kernelPositions ij)
  rw [← huniv, ← exactSum_eq_sum_toFinset cfg win r0 c0 kernelPositions_nodup]
  exact (evalNeverOverflows cfg hadm win r0 c0 kernelPositions kernelPositions_nodup).1

/-- R93: an admissible all-lit patch has ACC = S_ALL. -/
theorem sint16_accumulator_of_all_lit {cfg : Params} (hadm : cfg.admissible = true) {win : Window} {r0 c0 : Nat}
    (hlit : ∀ i j, litAt cfg win r0 c0 i j = true) : sint16 (accumulator cfg win r0 c0) = cfg.kernel.sAll := by
  rw [sint16_accumulator hadm, ← sum_kernelInt_eq_sAll]
  exact Finset.sum_congr rfl fun ij _ => if_pos (hlit ij.1 ij.2)

/-- Settles O39: ACC is the sum of the table, which is 12113 for the fallback table and negative with its K11 at 1. -/
theorem allLitStaysSymbolic : Obligations.AllLitStaysSymbolic := by
  refine ⟨fun cfg hadm win r0 c0 hlit => ?_, ⟨Config.fallbackKernel, by decide, by decide⟩,
    ⟨{ Config.fallbackKernel with k11 := 1 }, by decide, by decide⟩⟩
  have hacc := sint16_accumulator_of_all_lit hadm hlit
  exact ⟨hacc, by rw [evalWindow_iff, hacc]⟩

end Machine

end Sys2Proof

/-!
PROOFS. The window evaluator (spec/41_evaluator.md R100-R108): the accumulator of a patch whose lit cells are known, the
flags that follow, and the EVAL command.
-/

namespace Sys2Proof

namespace Machine

/-! ### The accumulator of a patch whose lit cells are known -/

section LitExactly

variable {cfg : Params} {win : Window} {r0 c0 : Nat} {ps : List (KIdx × KIdx)}

/-- The exact sum over all positions is the sum of the coefficients of the lit ones. -/
theorem exactSum_of_litExactly (hps : ps.Nodup) (hlit : LitExactly cfg win r0 c0 ps) :
    exactSum cfg win r0 c0 kernelPositions = (ps.map fun ij => kernelInt cfg.kernel ij.1 ij.2).sum := by
  have hterm : ∀ ij, litTerm cfg win r0 c0 ij = if ij ∈ ps.toFinset then kernelInt cfg.kernel ij.1 ij.2 else 0 :=
    fun ij => if_congr ((hlit ij.1 ij.2).trans List.mem_toFinset.symm) rfl rfl
  have huniv : kernelPositions.toFinset = Finset.univ :=
    Finset.eq_univ_of_forall fun ij => List.mem_toFinset.2 (mem_kernelPositions ij)
  calc exactSum cfg win r0 c0 kernelPositions
      = ∑ ij ∈ kernelPositions.toFinset, litTerm cfg win r0 c0 ij :=
        exactSum_eq_sum_toFinset cfg win r0 c0 kernelPositions_nodup
    _ = ∑ ij ∈ ps.toFinset, kernelInt cfg.kernel ij.1 ij.2 := by
        simp only [huniv, hterm, Finset.sum_ite_mem, Finset.univ_inter]
    _ = (ps.map fun ij => kernelInt cfg.kernel ij.1 ij.2).sum := List.sum_toFinset _ hps

/-- In every configuration ACC is the wrapped sum of the coefficients of the lit positions (R100). -/
theorem accumulator_of_litExactly (hps : ps.Nodup) (hlit : LitExactly cfg win r0 c0 ps) :
    accumulator cfg win r0 c0 = wrap16 (ps.map fun ij => kernelInt cfg.kernel ij.1 ij.2).sum := by
  rw [accumulator, accOver_eq_wrap16, exactSum_of_litExactly hps hlit]

/-- R104: with no lit position ACC is zero. -/
theorem accumulator_of_none_lit (hlit : LitExactly cfg win r0 c0 []) : accumulator cfg win r0 c0 = 0#16 :=
  accumulator_of_litExactly List.nodup_nil hlit

/-- R108: with one lit position ACC is the coefficient there. -/
theorem accumulator_of_one_lit {i j : KIdx} (hlit : LitExactly cfg win r0 c0 [(i, j)]) :
    accumulator cfg win r0 c0 = kRead cfg.kernel i j := by
  rw [accumulator_of_litExactly (List.nodup_singleton _) hlit, List.map_singleton, List.sum_singleton, kRead]

/-- R106: with the centre and its four neighbours lit, ACC is their wrapped sum. -/
theorem accumulator_of_plus_lit (hlit : LitExactly cfg win r0 c0 plusPositions) :
    accumulator cfg win r0 c0 = wrap16 (cfg.kernel.kc + 4 * cfg.kernel.ko) := by
  have hsum : (plusPositions.map fun ij => kernelInt cfg.kernel ij.1 ij.2).sum = cfg.kernel.kc + 4 * cfg.kernel.ko :=
    calc (plusPositions.map fun ij => kernelInt cfg.kernel ij.1 ij.2).sum
        = cfg.kernel.kc + (cfg.kernel.ko + (cfg.kernel.ko + (cfg.kernel.ko + (cfg.kernel.ko + 0)))) := rfl
      _ = cfg.kernel.kc + 4 * cfg.kernel.ko := by ring
  rw [accumulator_of_litExactly (by decide) hlit, hsum]

end LitExactly

/-! ### The flag -/

/-- The flag is 1 exactly when the integer of ACC is at least 8028 (R84, R89). -/
theorem evalWindow_iff_le (cfg : Params) (win : Window) (r0 c0 : Nat) :
    evalWindow cfg win r0 c0 = true ↔ 8028 ≤ sint16 (accumulator cfg win r0 c0) := by
  rw [evalWindow_iff, sint16_thresh]

/-- The flag is 0 exactly when the integer of ACC is below 8028 (R84, R89). -/
theorem evalWindow_eq_false_iff (cfg : Params) (win : Window) (r0 c0 : Nat) :
    evalWindow cfg win r0 c0 = false ↔ sint16 (accumulator cfg win r0 c0) < 8028 := by
  rw [← Bool.not_eq_true, evalWindow_iff_le, not_le]

/-- Settles O34: the sum over no position is zero, which is below 8028. -/
theorem emptyPatchNeverTriggers : Obligations.EmptyPatchNeverTriggers := by
  intro cfg win r0 c0 hlit
  have hacc := accumulator_of_none_lit hlit
  refine ⟨hacc, ?_⟩
  rw [evalWindow_eq_false_iff, hacc]
  decide

/-! ### The coefficients of an admissible table -/

section Admissible

variable {cfg : Params} (hadm : cfg.admissible = true)
include hadm

/-- WF_CENTER of R88. -/
theorem kc_range : 5212 ≤ cfg.kernel.kc ∧ cfg.kernel.kc ≤ 5214 :=
  of_decide_eq_true (Params.passes_of_admissible hadm (c := .wfCenter) (by decide))

/-- WF_ORTH of R88. -/
theorem ko_range : 1511 ≤ cfg.kernel.ko ∧ cfg.kernel.ko ≤ 1513 :=
  of_decide_eq_true (Params.passes_of_admissible hadm (c := .wfOrth) (by decide))

/-- Every coefficient is the integer of a word, and the centre's is the largest (WF_ORTH, WF_OUTER_NEG, WF_PEAK and
WF_NO_OVERFLOW of R88). -/
theorem kernelInt_range (i j : KIdx) :
    -32768 ≤ kernelInt cfg.kernel i j ∧ kernelInt cfg.kernel i j ≤ cfg.kernel.kc := by
  obtain ⟨hkc, -⟩ := kc_range hadm
  obtain ⟨-, hko⟩ := ko_range hadm
  have hpeak : cfg.kernel.k11 ≤ cfg.kernel.kc :=
    of_decide_eq_true (Params.passes_of_admissible hadm (c := .wfPeak) (by decide))
  obtain ⟨-, hkoPos, hk11Pos⟩ := inner_pos hadm
  obtain ⟨hk00, hk01, hk02, hk10, hk20⟩ := outer_neg hadm
  obtain ⟨hneg, -⟩ := sums_in_range hadm
  rw [KernelTable.negSum] at hneg
  rw [kernelInt]
  unfold kernelQuadrant
  split <;> omega

/-- KRead's word stands for the coefficient itself (R53, WF_RANGE of R88). -/
theorem sint16_kRead (i j : KIdx) : sint16 (kRead cfg.kernel i j) = kernelInt cfg.kernel i j := by
  obtain ⟨hlo, hhi⟩ := kernelInt_range hadm i j
  obtain ⟨-, hkc⟩ := kc_range hadm
  exact sint16_wrap16_of_range hlo (by omega)

end Admissible

/-! ### One lit cell, and the centre with its neighbours -/

/-- Settles O38: ACC is one coefficient, and the largest is below 8028. -/
theorem oneLitCellNeverTriggers : Obligations.OneLitCellNeverTriggers := by
  intro cfg hadm win r0 c0 i j hlit
  have hacc := accumulator_of_one_lit hlit
  have hle : sint16 (kRead cfg.kernel i j) ≤ cfg.kernel.kc := by
    rw [sint16_kRead hadm]
    exact (kernelInt_range hadm i j).2
  obtain ⟨-, hkc⟩ := kc_range hadm
  refine ⟨hacc, hle, hkc, ?_⟩
  rw [evalWindow_eq_false_iff, hacc]
  omega

/-- Settles O35: the one lit cell's coefficient is that of the centre. -/
theorem centreOnlyNeverTriggers : Obligations.CentreOnlyNeverTriggers := by
  intro cfg hadm win r0 c0 hlit
  obtain ⟨hacc, -, -, hflag⟩ := oneLitCellNeverTriggers cfg hadm win r0 c0 2 2 hlit
  obtain ⟨hlo, hhi⟩ := kc_range hadm
  refine ⟨?_, hlo, hhi, hflag⟩
  rw [hacc, sint16_kRead hadm]
  rfl

/-- Settles O36: ACC is KC + 4*KO, which WF_CENTER and WF_ORTH keep inside a word and above 8028. -/
theorem centrePlusNeighboursTriggers : Obligations.CentrePlusNeighboursTriggers := by
  intro cfg hadm win r0 c0 hlit
  obtain ⟨hkcLo, hkcHi⟩ := kc_range hadm
  obtain ⟨hkoLo, hkoHi⟩ := ko_range hadm
  have hacc := accumulator_of_plus_lit hlit
  have hint : sint16 (accumulator cfg win r0 c0) = cfg.kernel.kc + 4 * cfg.kernel.ko := by
    rw [hacc, sint16_wrap16_of_range] <;> omega
  refine ⟨hint, by omega, by omega, fun hkc hko => ?_, ?_⟩
  · rw [hacc, hkc, hko]
    rfl
  · rw [evalWindow_iff_le, hint]
    omega

/-! ### Wraparound -/

/-- R52, R108: a window with one lit cell never triggers, since a patch reads that cell at one position or at none. -/
theorem evalWindow_of_one_lit_cell {cfg : Params} (hadm : cfg.admissible = true) {win : Window} {r c : Nat}
    (hwin : ∀ r' c', r' < cfg.winH → c' < cfg.winW → (win.cell r' c' ≠ 0 ↔ r' = r ∧ c' = c)) (r0 c0 : Nat) :
    evalWindow cfg win r0 c0 = false := by
  have hH := Params.five_le_winH hadm
  have hW := Params.five_le_winW hadm
  have hlit : ∀ i j : KIdx,
      litAt cfg win r0 c0 i j = true ↔ wrapCoord cfg.winH r0 i = r ∧ wrapCoord cfg.winW c0 j = c :=
    fun i j => bne_iff_ne.trans (hwin _ _ (wrapCoord_lt hH r0 i) (wrapCoord_lt hW c0 j))
  by_cases hread : ∃ i j : KIdx, wrapCoord cfg.winH r0 i = r ∧ wrapCoord cfg.winW c0 j = c
  · obtain ⟨i, j, rfl, rfl⟩ := hread
    refine (oneLitCellNeverTriggers cfg hadm win r0 c0 i j fun i' j' => ?_).2.2.2
    rw [hlit, (wrapCoord_injective hH r0).eq_iff, (wrapCoord_injective hW c0).eq_iff, List.mem_singleton,
      Prod.mk.injEq]
  · refine (emptyPatchNeverTriggers cfg win r0 c0 fun i j => ?_).2
    rw [hlit]
    exact ⟨fun h => absurd ⟨i, j, h⟩ hread, fun h => absurd h List.not_mem_nil⟩

/-- R107: one past the last coordinate is the first. -/
theorem wrapCoord_last {dim : Nat} (hdim : 5 ≤ dim) : wrapCoord dim (dim - 1) 1 = 0 := by
  rw [wrapCoord, Nat.sub_add_cancel (by omega), Nat.mod_self]

/-- R107: a coordinate past the last is one dimension further back. -/
theorem wrapCoord_of_le {dim start : Nat} (hdim : 5 ≤ dim) (hstart : start < dim) {k : KIdx}
    (hpast : dim ≤ start + k.val) : wrapCoord dim start k = start + k.val - dim := by
  rw [wrapCoord_eq_ite hdim hstart, if_pos hpast]

/-- Settles O37: wrapping takes the dimension away past the edge, and one lit cell never triggers at any offset. -/
theorem wraparoundReadsFirstRow : Obligations.WraparoundReadsFirstRow := by
  intro cfg hadm
  have hH := Params.five_le_winH hadm
  have hW := Params.five_le_winW hadm
  exact ⟨wrapCoord_last hH, wrapCoord_last hW, fun _ _ hr0 => wrapCoord_of_le hH hr0,
    fun _ _ hc0 => wrapCoord_of_le hW hc0,
    fun _ _ _ hwin c0 _ => evalWindow_of_one_lit_cell hadm hwin (cfg.winH - 1) c0⟩

/-! ### Order of the additions -/

/-- Settles O33: ACC is the wrap of a sum, which no order changes and which splits at a concatenation. -/
theorem evalOrderIndependent : Obligations.EvalOrderIndependent := by
  intro cfg win r0 c0
  refine ⟨fun ps hperm => ?_, fun ps qs => ?_⟩
  · rw [accumulator, accOver_eq_wrap16, accOver_eq_wrap16, exactSum_eq_sum_map, exactSum_eq_sum_map,
      (hperm.map _).sum_eq]
  · simp only [accOver_eq_wrap16, ← wrap16_add, exactSum_eq_sum_map, List.map_append, List.sum_append]

/-! ### The closed form and the examples at the default sizes -/

section DefaultSizes

variable (k11 k00 k01 k02 k10 k20 : Int) (d e : Nat)

/-- In a 5 x 5 window of one-bit cells, at offsets 0, position (i, j) is lit by bit 5 i + j of the pattern (R67). -/
theorem litAt_withDefaults (bits : Nat) (i j : KIdx) :
    let cfg := Params.withDefaults k11 k00 k01 k02 k10 k20 d e
    litAt cfg (Window.ofBits cfg bits) 0 0 i j = bits.testBit (i.val * 5 + j.val) := by
  intro cfg
  have hbit : windowField cfg bits i j = bits / 2 ^ ((i.val * 5 + j.val) * 1) % 2 ^ 1 := rfl
  have hrow : wrapCoord cfg.winH 0 i = i := wrapCoord_zero le_rfl i
  have hcol : wrapCoord cfg.winW 0 j = j := wrapCoord_zero le_rfl j
  rw [litAt, hrow, hcol, Window.cell_ofBits cfg bits i.isLt j.isLt, hbit, lit, Nat.mul_one, Nat.pow_one,
    Nat.testBit_eq_decide_div_mod_eq]
  rcases Nat.mod_two_eq_zero_or_one (bits / 2 ^ (i.val * 5 + j.val)) with h | h <;> simp [h]

/-- The pattern 0x1000 lights the centre alone (example of R100). -/
theorem litExactly_centre_withDefaults :
    let cfg := Params.withDefaults k11 k00 k01 k02 k10 k20 d e
    LitExactly cfg (Window.ofBits cfg 0x1000) 0 0 [(2, 2)] := by
  intro cfg i j
  rw [litAt_withDefaults]
  revert i j
  decide

/-- The pattern 0x23880 lights the centre and its four neighbours (example of R101). -/
theorem litExactly_plus_withDefaults :
    let cfg := Params.withDefaults k11 k00 k01 k02 k10 k20 d e
    LitExactly cfg (Window.ofBits cfg 0x23880) 0 0 plusPositions := by
  intro cfg i j
  rw [litAt_withDefaults]
  revert i j
  decide

/-- The example of R100: ACC is KC, which is below 8028. -/
theorem evalWindow_centre_withDefaults :
    let cfg := Params.withDefaults k11 k00 k01 k02 k10 k20 d e
    accumulator cfg (Window.ofBits cfg 0x1000) 0 0 = 5213#16 ∧
      evalWindow cfg (Window.ofBits cfg 0x1000) 0 0 = false := by
  intro cfg
  have hacc : accumulator cfg (Window.ofBits cfg 0x1000) 0 0 = 5213#16 :=
    accumulator_of_one_lit (litExactly_centre_withDefaults k11 k00 k01 k02 k10 k20 d e)
  refine ⟨hacc, ?_⟩
  rw [evalWindow_eq_false_iff, hacc]
  decide

/-- The example of R101: ACC is KC + 4*KO = 5213 + 4*1512, which is at least 8028. -/
theorem evalWindow_plus_withDefaults :
    let cfg := Params.withDefaults k11 k00 k01 k02 k10 k20 d e
    accumulator cfg (Window.ofBits cfg 0x23880) 0 0 = 11261#16 ∧
      evalWindow cfg (Window.ofBits cfg 0x23880) 0 0 = true := by
  intro cfg
  have hacc : accumulator cfg (Window.ofBits cfg 0x23880) 0 0 = 11261#16 :=
    accumulator_of_plus_lit (litExactly_plus_withDefaults k11 k00 k01 k02 k10 k20 d e)
  refine ⟨hacc, ?_⟩
  rw [evalWindow_iff_le, hacc]
  decide

end DefaultSizes

/-- A position's term of the exact sum, written over the window's cells and the table's words (R85, R100). -/
theorem litTerm_eq_ite {cfg : Params} (hadm : cfg.admissible = true) (win : Window) (r0 c0 : Nat) (i j : KIdx) :
    litTerm cfg win r0 c0 (i, j) =
      if win.cell ((r0 + i.val) % cfg.winH) ((c0 + j.val) % cfg.winW) ≠ 0 then sint16 (kRead cfg.kernel i j)
      else 0 := by
  rw [sint16_kRead hadm]
  exact if_congr bne_iff_ne rfl rfl

/-- Settles O32: no add wraps, so the flag compares the exact sum of the terms with 8028. -/
theorem evalClosedForm : Obligations.EvalClosedForm := by
  refine ⟨fun cfg hadm win r0 c0 _ _ => ?_, evalWindow_centre_withDefaults⟩
  rw [evalWindow_iff_le, sint16_accumulator hadm, Fintype.sum_prod_type]
  simp only [litTerm_eq_ite hadm]

/-! ### The EVAL command -/

/-- EVAL, once accepted with an offset outside the window, raises cause 3 with its word (R101). -/
theorem evalCommand_of_outside {cfg : Params} {row col : BitVec 14}
    (hout : ¬(row.toNat < cfg.winH ∧ col.toNat < cfg.winW)) (win : Window) (s : State) :
    evalCommand cfg row col win s = raiseFault .evalOffset (evalWord row col) s := by
  rw [evalCommand, if_neg ((offsetOk_iff ..).not.2 hout)]

/-- EVAL holds while BUSY or FAULT (R101, R117). -/
theorem exec_eval_held {s : State} (hheld : s.busy = true ∨ s.fault = true) (row col : BitVec 14) (win : Window) :
    exec (.eval row col win) s = .next s := by
  have hnotReady : ¬commandReady s = true := by
    rw [commandReady_iff]
    rcases hheld with h | h <;> simp [h]
  exact disabledTransactionsHold (.eval row col win) s (Bool.eq_false_of_not_eq_true hnotReady)

/-- Settles O2: an accepted EVAL is inside the window or outside it, and the example's is inside. -/
theorem evalMeaning : Obligations.EvalMeaning := by
  refine ⟨fun row col win s => ⟨fun hbusy hfault => ?_, fun hheld => exec_eval_held hheld row col win⟩,
    fun k11 k00 k01 k02 k10 k20 d e s => ?_⟩
  · refine (commandStep_of_ready hbusy hfault).trans (congrArg _ ?_)
    split
    case isTrue hinside => exact evalCommand_of_inside hinside.1 hinside.2 win (takeOffer s)
    case isFalse hout => exact evalCommand_of_outside hout win (takeOffer s)
  · intro cfg win
    obtain ⟨hacc, hflag⟩ := evalWindow_plus_withDefaults k11 k00 k01 k02 k10 k20 d e
    have hcommand : evalCommand cfg 0#14 0#14 win s =
        { s with evalFlag := evalWindow cfg win 0 0, evalValid := true } :=
      evalCommand_of_inside (cfg := cfg) (row := 0#14) (col := 0#14) (Nat.succ_pos 4) (Nat.succ_pos 4) win s
    rw [hcommand]
    exact ⟨decodeCommand_evalWord 0#14 0#14 win, hacc, hflag, rfl⟩

end Machine

end Sys2Proof

/-!
PROOFS. The streaming driver (spec/42_driver.md): FRAME_START, the two phases of PIXEL and PUSH as whole next states
(R110-R112, R115), the pending request's place in the frame (R111, R123), the flag's independence of the samples (R122),
and the admitted deadlocks (R125, R161).
-/

namespace Sys2Proof.Machine

/-! ### FRAME_START -/

/-- FRAME_START, once accepted with nonzero dimensions, starts the frame (R110). -/
theorem frameStart_of_ne_zero {h w : BitVec 14} (hheight : h ≠ 0#14) (hwidth : w ≠ 0#14) (s : State) :
    frameStart h w s = { s with frameW := w, frameH := h, pixCount := 0#28, done := false, busy := true } :=
  if_neg (not_or_intro hheight hwidth)

/-- FRAME_START, once accepted with a zero dimension, raises cause 2 with its word (R110). -/
theorem frameStart_of_zero {h w : BitVec 14} (hzero : h = 0#14 ∨ w = 0#14) (s : State) :
    frameStart h w s = raiseFault .frameZero (frameStartWord h w) s := if_pos hzero

/-- Every command is enabled exactly when the port is ready (R117). -/
theorem instrEnabled_of_command {i : Instr} (hcommand : commandWord i ≠ none) (cfg : Params) (s : State) :
    instrEnabled cfg s i = commandReady s := by
  cases i
  case frameStart | eval | reservedOp0 | reservedOp3 | reservedOp4To7 | reservedOp8ToF => rfl
  all_goals exact absurd rfl hcommand

/-- Every command holds while BUSY or FAULT (R117). -/
theorem exec_command_held {i : Instr} (hcommand : commandWord i ≠ none) {s : State}
    (hheld : s.busy = true ∨ s.fault = true) : exec i s = .next s := by
  refine disabledTransactionsHold i s ?_
  rw [instrEnabled_of_command hcommand, ← Bool.not_eq_true, commandReady_iff]
  rcases hheld with h | h <;> simp [h]

/-- Settles O1: an accepted FRAME_START starts the frame or faults, and while BUSY or FAULT it holds. -/
theorem frameStartMeaning : Obligations.FrameStartMeaning := by
  refine fun h w s => ⟨fun idle sound hheight hwidth => ?_, fun idle sound hzero => ?_,
    exec_command_held (i := .frameStart h w) (Option.some_ne_none _)⟩
  · exact (commandStep_of_ready idle sound).trans (congrArg _ (frameStart_of_ne_zero hheight hwidth (takeOffer s)))
  · exact (commandStep_of_ready idle sound).trans (congrArg _ (frameStart_of_zero hzero (takeOffer s)))

/-! ### PIXEL, phase ISSUE -/

/-- ISSUE holds outside its enabling condition (R17, R111). -/
theorem exec_pixelIssue_held {s : State}
    (h : s.busy = false ∨ s.fault = true ∨ s.wsReq ≠ none ∨ s.wsRsp ≠ none ∨ s.sIn = []) :
    exec .pixelIssue s = .next s := by
  refine disabledTransactionsHold .pixelIssue s (Bool.eq_false_of_not_eq_true fun hen => ?_)
  obtain ⟨running, sound, hreq, hrsp, smp, rest, hin⟩ := (issueEnabled_iff s).1 hen
  simp [running, sound, hreq, hrsp, hin] at h

/-- Settles O5: the enabled ISSUE takes the head sample, and otherwise it holds. -/
theorem pixelIssueMeaning : Obligations.PixelIssueMeaning :=
  ⟨fun _ _ _ running sound hreq hrsp hin => exec_pixelIssue running sound hreq hrsp hin,
    fun _ h => exec_pixelIssue_held h⟩

/-! ### PIXEL, phase COMPLETE -/

/-- COMPLETE holds outside its enabling condition (R17, R112). -/
theorem exec_pixelComplete_held {s : State}
    (h : s.busy = false ∨ s.fault = true ∨ s.wsRsp = none ∨ Config.params.outDepth ≤ s.fOut.length) :
    exec .pixelComplete s = .next s := by
  refine disabledTransactionsHold .pixelComplete s (Bool.eq_false_of_not_eq_true fun hen => ?_)
  obtain ⟨running, sound, ⟨rsp, hrsp⟩, hroom⟩ := (completeEnabled_iff ..).1 hen
  simp [running, sound, hrsp, hroom.not_ge] at h

/-- COMPLETE with offsets inside the window clears the answer, pushes its flag and counts the pixel (R112). -/
theorem completePixel_of_inside {cfg : Params} {s : State} {rsp : WsResponse} (hrsp : s.wsRsp = some rsp)
    (hrow : rsp.startRow.toNat < cfg.winH) (hcol : rsp.startCol.toNat < cfg.winW) :
    completePixel cfg s =
      countPixel (pushFlag (evalWindow cfg rsp.win rsp.startRow.toNat rsp.startCol.toNat) { s with wsRsp := none }) := by
  simp only [completePixel, hrsp, (offsetOk_iff ..).2 ⟨hrow, hcol⟩, if_true]

/-- COMPLETE with an offset outside the window clears the answer and raises cause 4 with the offsets (R112). -/
theorem completePixel_of_outside {cfg : Params} {s : State} {rsp : WsResponse} (hrsp : s.wsRsp = some rsp)
    (hout : cfg.winH ≤ rsp.startRow.toNat ∨ cfg.winW ≤ rsp.startCol.toNat) :
    completePixel cfg s = raiseFault .srcOffset (rsp.startRow ++ rsp.startCol) { s with wsRsp := none } := by
  have hoff : ¬offsetOk cfg rsp.startRow.toNat rsp.startCol.toNat = true := by
    rw [offsetOk_iff]
    omega
  simp only [completePixel, hrsp, if_neg hoff]

/-- While a frame runs, counting a pixel advances PIX_COUNT, and clears BUSY and sets DONE on the last one (R112, R114). -/
theorem countPixel_of_busy {s : State} (running : s.busy = true) :
    countPixel s =
      { s with
        pixCount := s.pixCount + 1#28
        busy := if s.pixCount.toNat + 1 = frameSize s then false else true
        done := if s.pixCount.toNat + 1 = frameSize s then true else s.done } := by
  rcases countPixel_cases s with ⟨hlast, hcount⟩ | ⟨hinner, hcount⟩ <;> rw [hcount]
  · simp only [if_pos hlast, completeFrame]
  · simp only [if_neg hinner, ← running]

/-- Counting a pixel leaves F_OUT. -/
@[simp] theorem countPixel_fOut (s : State) : (countPixel s).fOut = s.fOut := by
  rcases countPixel_cases s with ⟨_, hcount⟩ | ⟨_, hcount⟩ <;> simp [hcount]

/-- Settles O6: the enabled COMPLETE is inside the window or outside it, and the example's flag is that of R101. -/
theorem pixelCompleteMeaning : Obligations.PixelCompleteMeaning := by
  refine ⟨fun s rsp running sound hrsp hroom hrow hcol => ?_, fun s rsp running sound hrsp hroom hout => ?_,
    fun s h => exec_pixelComplete_held h, fun k11 k00 k01 k02 k10 k20 d e s => ?_⟩
  · rw [exec_pixelComplete running sound hrsp hroom, completePixel_of_inside hrsp hrow hcol]
    exact congrArg _ (countPixel_of_busy running)
  · rw [exec_pixelComplete running sound hrsp hroom, completePixel_of_outside hrsp hout]
    rfl
  · intro cfg hrsp
    obtain ⟨_, hflag⟩ := evalWindow_plus_withDefaults k11 k00 k01 k02 k10 k20 d e
    rw [completePixel_of_inside (cfg := cfg) hrsp (Nat.succ_pos 4) (Nat.succ_pos 4), countPixel_fOut]
    exact congrArg (s.fOut ++ [·]) hflag

/-! ### PUSH -/

/-- Settles O8: PUSH is enabled exactly when S_IN has room. -/
theorem pushMeaning : Obligations.PushMeaning := by
  refine fun smp s => ⟨fun hroom => ?_, fun hfull => ?_⟩
  · calc exec (.push smp) s
        = transact (pushEnabled Config.params s) (pushSample smp s) s := rfl
      _ = .next (pushSample smp s) := by rw [pushEnabled, decide_eq_true hroom, transact_true]
  · exact disabledTransactionsHold (.push smp) s (decide_eq_false hfull.not_gt)

/-! ### The place of a request in the frame -/

/-- The request for a pixel of the frame has that pixel's row and column in raster order, uncut by their 14 bits
(R111, R123). -/
theorem nextRequest_raster {s : State} (smp : Bool) (hcount : s.pixCount.toNat < frameSize s) :
    (nextRequest smp s).row.toNat = s.pixCount.toNat / s.frameW.toNat ∧
      (nextRequest smp s).col.toNat = s.pixCount.toNat % s.frameW.toNat ∧
      s.pixCount.toNat / s.frameW.toNat < s.frameH.toNat ∧ s.pixCount.toNat % s.frameW.toNat < s.frameW.toNat := by
  have hwidth : 0 < s.frameW.toNat := Nat.pos_of_mul_pos_right (Nat.zero_lt_of_lt hcount)
  have hrow : s.pixCount.toNat / s.frameW.toNat < s.frameH.toNat := Nat.div_lt_of_lt_mul hcount
  have hcol : s.pixCount.toNat % s.frameW.toNat < s.frameW.toNat := Nat.mod_lt _ hwidth
  exact ⟨Nat.mod_eq_of_lt (hrow.trans s.frameH.isLt), Nat.mod_eq_of_lt (hcol.trans s.frameW.isLt), hrow, hcol⟩

/-- Settles O56: the invariant says that the request is the one for PIX_COUNT, which is inside the running frame. -/
theorem requestIsAtRasterPosition : Obligations.RequestIsAtRasterPosition := by
  intro s q hs hreq
  obtain ⟨running, _, hq⟩ := hs.requestOk q hreq
  obtain ⟨hrow, hcol, hrowLt, hcolLt⟩ := nextRequest_raster q.s (hs.busyCount running)
  rw [hq]
  exact ⟨rfl, hrow, hcol, hrow.trans_lt hrowLt, hcol.trans_lt hcolLt⟩

/-! ### The flag and the samples -/

/-- `s` with other samples waiting, another history of the window source and another request pending (R122). -/
def State.withSamples (s : State) (xs : List Bool) (hist : List WsRequest) (req : Option WsRequest) : State :=
  { s with sIn := xs, wsHistory := hist, wsReq := req }

section WithSamples

variable (s : State) (xs : List Bool) (hist : List WsRequest) (req : Option WsRequest)

/-- Counting a pixel neither reads nor writes them. -/
theorem countPixel_withSamples :
    countPixel (s.withSamples xs hist req) = (countPixel s).withSamples xs hist req := by
  rcases countPixel_cases s with ⟨hlast, hcount⟩ | ⟨hinner, hcount⟩ <;> rw [hcount]
  · exact if_pos hlast
  · exact if_neg hinner

/-- COMPLETE's effect neither reads nor writes them. -/
theorem completePixel_withSamples (cfg : Params) :
    completePixel cfg (s.withSamples xs hist req) = (completePixel cfg s).withSamples xs hist req := by
  cases hrsp : s.wsRsp with
  | none => simp only [completePixel, State.withSamples, hrsp]
  | some rsp =>
    have hrsp' : (s.withSamples xs hist req).wsRsp = some rsp := hrsp
    rcases completePixel_cases (cfg := cfg) hrsp with ⟨hrow, hcol, heq⟩ | ⟨hout, heq⟩ <;> rw [heq]
    · rw [completePixel_of_inside hrsp' hrow hcol, ← countPixel_withSamples]
      rfl
    · rw [completePixel_of_outside hrsp' hout]
      rfl

end WithSamples

/-- Settles O57: neither the enabling condition of COMPLETE nor its effect reads what differs. -/
theorem flagIgnoresSamples : Obligations.FlagIgnoresSamples := by
  intro s t xs hist req hexec
  rcases transact_cases hexec with ⟨hen, rfl⟩ | ⟨hoff, rfl⟩
  · calc exec .pixelComplete (s.withSamples xs hist req)
        = transact (completeEnabled Config.params s) (completePixel Config.params (s.withSamples xs hist req))
            (s.withSamples xs hist req) := rfl
      _ = .next ((completePixel Config.params s).withSamples xs hist req) := by
          rw [hen, transact_true, completePixel_withSamples]
  · exact disabledTransactionsHold .pixelComplete (t.withSamples xs hist req) hoff

/-! ### Deadlocks -/

/-- The window source holds while no request is pending (R17, R113). -/
theorem exec_wsAnswer_held {s : State} (hreq : s.wsReq = none) : exec .wsAnswer s = .next s :=
  disabledTransactionsHold .wsAnswer s (by rw [instrEnabled, answerEnabled, hreq, Option.isSome_none])

/-- The driver's transactions are the two phases of PIXEL (R22). -/
theorem eq_of_instrAgent_driver {i : Instr} (h : instrAgent i = .driver) : i = .pixelIssue ∨ i = .pixelComplete := by
  cases i <;> simp [instrAgent] at h ⊢

/-- The transactions of the driver and the window source are the two phases of PIXEL and WS_ANSWER (R22). -/
theorem eq_of_instrAgent_ne_host {i : Instr} (h : instrAgent i ≠ .host) :
    i = .pixelIssue ∨ i = .pixelComplete ∨ i = .wsAnswer := by
  cases i <;> simp [instrAgent] at h ⊢

/-- Settles O59: in each deadlock a conjunct of every such transaction's enabling condition fails, and BUSY = 1. -/
theorem deadlocksAreHolds : Obligations.DeadlocksAreHolds := by
  refine fun s running => ⟨fun hreq hstuck i hagent => ?_, fun i hcommand => exec_command_held hcommand (.inl running),
    fun hreq hrsp => ⟨fun i hagent => ?_, Option.isSome_iff_ne_none.2 hreq⟩, by simp [State.finished, running]⟩
  · rcases eq_of_instrAgent_ne_host hagent with rfl | rfl | rfl
    · exact exec_pixelIssue_held (.inr (.inr (.inr (hstuck.symm.imp And.left And.left))))
    · exact exec_pixelComplete_held (.inr (.inr (hstuck.imp And.right And.right)))
    · exact exec_wsAnswer_held hreq
  · rcases eq_of_instrAgent_driver hagent with rfl | rfl
    · exact exec_pixelIssue_held (.inr (.inr (.inl hreq)))
    · exact exec_pixelComplete_held (.inr (.inr (.inl hrsp)))

end Sys2Proof.Machine

/-!
PROOFS. Faults (spec/60_exceptions.md): the transaction that raises one is precise (R133), and in the faulted state only
the host's streams move until RESET (R132).
-/

namespace Sys2Proof.Machine

/-! ### The transaction that raises the fault -/

/-- Settles O48: the four transitions that raise a fault write the fault registers, the port and WS_RSP only. -/
theorem faultsArePrecise : Obligations.FaultsArePrecise := by
  intro i s t hexec hsound hraised
  cases exec_transition hexec with
  | frameZero | evalOffset | reserved | sourceOffset => exact ⟨rfl, rfl, rfl, rfl, rfl, rfl, rfl, rfl, rfl⟩
  | reset => exact Bool.noConfusion hraised
  | _ => exact Bool.noConfusion (hsound.symm.trans hraised)

/-! ### The faulted state -/

/-- While FAULT is set the window-source channel is empty (R132). -/
theorem State.Inv.channel_empty_of_faulted {cfg : Params} {s : State} (hs : s.Inv cfg) (hfault : s.fault = true) :
    s.wsReq = none ∧ s.wsRsp = none := by
  constructor
  · refine Option.eq_none_iff_forall_ne_some.2 fun q hq => ?_
    obtain ⟨_, sound, _⟩ := hs.requestOk q hq
    exact Bool.noConfusion (sound.symm.trans hfault)
  · refine Option.eq_none_iff_forall_ne_some.2 fun rsp hrsp => ?_
    obtain ⟨_, sound, _⟩ := hs.responseOk rsp hrsp
    exact Bool.noConfusion (sound.symm.trans hfault)

/-- In a faulted state without a request only PUSH, POP and READ are left beside RESET: they move the host's ends of the
streams and record what the host is given (R132). -/
theorem Transition.of_faulted {i : Instr} {s t : State} (h : Transition s i t) (hfault : s.fault = true)
    (hreq : s.wsReq = none) (hreset : i ≠ .reset) :
    ∃ samples flags popped reads,
      t = { s with sIn := samples, fOut := flags, popped := popped, statusReads := reads } ∧
      (samples = s.sIn ∨ ∃ smp, samples = s.sIn ++ [smp]) ∧ (flags = s.fOut ∨ ∃ f, s.fOut = f :: flags) := by
  cases h with
  | push => exact ⟨_, _, _, _, rfl, .inr ⟨_, rfl⟩, .inl rfl⟩
  | pop hout => exact ⟨_, _, _, _, rfl, .inl rfl, .inr ⟨_, hout⟩⟩
  | read | hold => exact ⟨_, _, _, _, rfl, .inl rfl, .inl rfl⟩
  | answer hpending => exact absurd (hreq.symm.trans hpending) (Option.some_ne_none _).symm
  | reset => exact absurd rfl hreset
  | _ => exact Bool.noConfusion (‹s.fault = false›.symm.trans hfault)

/-- Before its transaction a turn touches only the schedule and the host's side of the command port (R22, R117, R125). -/
theorem turnState_nextTurn (s : State) :
    ∃ rest n offer ended, turnState (nextTurn s).2 (nextTurn s).1 =
      { s with agenda := rest, turns := n, cmdOffer := offer, commandsEnded := ended } := by
  obtain ⟨rest, n, hnext⟩ := nextTurn_state s
  rcases turnState_cases (nextTurn s).2 (nextTurn s).1 with heq | ⟨o, _, _, heq⟩ | heq <;> rw [heq, hnext]
  · exact ⟨rest, n, s.cmdOffer, s.commandsEnded, rfl⟩
  · exact ⟨rest, n, some o, s.commandsEnded, rfl⟩
  · exact ⟨rest, n, s.cmdOffer, true, rfl⟩

/-- A step whose turn is RESET resets the block (R150). -/
theorem step_of_reset {s : State} (hturn : (nextTurn s).1 = .act .reset) :
    step s = .next (resetBlock (nextTurn s).2) := by
  unfold step
  rw [hturn]
  rfl

/-- A step of a faulted state whose turn is not RESET, as a whole next state: only the schedule, the command port, the
host's ends of the streams and the records of what the host is given can differ (R132). -/
theorem step_of_faulted {s t : State} (hs : s.Inv Config.params) (hfault : s.fault = true)
    (hturn : (nextTurn s).1 ≠ .act .reset) (hstep : step s = .next t) :
    ∃ samples flags popped reads rest n offer ended,
      t = { s with
        sIn := samples, fOut := flags, popped := popped, statusReads := reads
        agenda := rest, turns := n, cmdOffer := offer, commandsEnded := ended } ∧
      (samples = s.sIn ∨ ∃ smp, samples = s.sIn ++ [smp]) ∧ (flags = s.fOut ∨ ∃ f, s.fOut = f :: flags) := by
  obtain ⟨rest, n, offer, ended, hstate⟩ := turnState_nextTurn s
  rcases step_cases hstep with ⟨i, hinstr, hexec⟩ | ⟨_, rfl⟩
  · rw [hstate] at hexec
    have hreset : i ≠ .reset := by
      rintro rfl
      exact hturn (turnInstr_reset hinstr)
    obtain ⟨samples, flags, popped, reads, rfl, hin, hout⟩ :=
      (exec_transition hexec).of_faulted hfault (hs.channel_empty_of_faulted hfault).1 hreset
    exact ⟨samples, flags, popped, reads, rest, n, offer, ended, rfl, hin, hout⟩
  · exact ⟨s.sIn, s.fOut, s.popped, s.statusReads, rest, n, offer, ended, hstate, .inl rfl, .inl rfl⟩

/-- Settles O55: a step that is not RESET leaves the registers and the history in place and the channel empty, as the
invariant has it in a faulted state; RESET leaves the block without a fault. -/
theorem faultedStateIsQuiescent : Obligations.FaultedStateIsQuiescent := by
  refine fun s t hs hfault hstep => ⟨fun hturn => ?_, fun hturn => ?_⟩
  · obtain ⟨hreq, hrsp⟩ := hs.channel_empty_of_faulted hfault
    obtain ⟨samples, flags, _, _, _, _, _, _, rfl, hin, hout⟩ := step_of_faulted hs hfault hturn hstep
    exact ⟨rfl, rfl, hfault, rfl, rfl, rfl, rfl, rfl, rfl, rfl, hreq, hrsp, rfl, hin, hout⟩
  · obtain rfl := Host.Outcome.next.inj ((step_of_reset hturn).symm.trans hstep)
    rfl

end Sys2Proof.Machine

/-!
PROOFS. RESET (spec/70_reset_and_hazards.md R150) and the progress of the window source under weak fairness (R158, R160).
-/

namespace Sys2Proof.Machine

/-! ### RESET -/

/-- RESET is enabled in every state (R150). -/
theorem exec_reset (s : State) : exec .reset s = .next (resetBlock s) := transact_true _ s

/-- Settles O11: RESET answers the reset block, whose registers, streams, channel, offer and history are the table's. -/
theorem resetMeaning : Obligations.ResetMeaning := fun s => ⟨resetBlock s, exec_reset s, by simp⟩

/-! ### A fair window source -/

theorem stateNext_of_step {s t : State} (h : step s = .next t) : stateNext s = t := by
  rw [stateNext, h]

/-- Choosing the next turn leaves the pending request. -/
theorem nextTurn_wsReq (s : State) : (nextTurn s).2.wsReq = s.wsReq := by
  obtain ⟨rest, n, heq⟩ := nextTurn_state s
  rw [heq]

/-- A step whose turn is the window source's runs its transaction (R22, R113). -/
theorem step_of_answer {s : State} (hturn : (nextTurn s).1 = .act .answer) :
    step s = exec .wsAnswer (nextTurn s).2 := by
  unfold step
  rw [hturn]
  rfl

/-- The window source's turn leaves no request pending: one that was is answered, and with none it holds (R17, R113). -/
theorem stateNext_wsReq_of_answer {s : State} (hturn : (nextTurn s).1 = .act .answer) : (stateNext s).wsReq = none := by
  have hstep := step_of_answer hturn
  cases hreq : s.wsReq with
  | none =>
    rw [stateNext_of_step (hstep.trans (exec_wsAnswer_held ((nextTurn_wsReq s).trans hreq))), nextTurn_wsReq, hreq]
  | some q => rw [stateNext_of_step (hstep.trans (exec_wsAnswer ((nextTurn_wsReq s).trans hreq)))]

/-- Settles O60: a request pending for ever would keep WS_ANSWER enabled for ever, so its turn would come, and that turn
leaves none pending. -/
theorem fairSourceAnswersRequest : Obligations.FairSourceAnswersRequest := by
  intro s q _ hfair
  by_contra! hpending
  have henabled : ∀ m, answerEnabled (stateAfter s m) = true := fun m => Option.isSome_iff_ne_none.2 (hpending m)
  obtain ⟨m, hturn⟩ := hfair henabled
  exact hpending (m + 1) (stateNext_wsReq_of_answer hturn)

end Sys2Proof.Machine

/-!
PROOFS. The machine's configuration passes its elaboration checks (spec/00_scope.md R9; spec/40_fixed_point.md R88;
spec/60_exceptions.md R139).
-/

namespace Sys2Proof

/-- A configuration is admissible exactly when no check refuses it (R139). -/
theorem Params.refusedBy_eq_nil_iff (p : Params) : p.refusedBy = [] ↔ p.admissible = true := by
  simp only [Params.refusedBy, Params.admissible, List.filter_eq_nil_iff, List.all_eq_true, Bool.not_eq_true',
    Bool.not_eq_false]

/-- The checks of R88 look at the kernel table only. -/
theorem Check.passes_kernel_only (p : Params) {c : Check} (hc : c ∈ Check.kernelChecks) :
    c.passes p = c.passes { (default : Params) with kernel := p.kernel } := by
  cases c
  case wfRange | wfCenter | wfOrth | wfInnerPos | wfOuterNeg | wfPeak | wfNoOverflow => rfl
  all_goals exact absurd hc (by decide)

/-- A configuration whose sizes are in the ranges of R9 and whose table passes the checks of R88 is admissible. -/
theorem Params.admissible_of_ranges {p : Params} (hwinH : 5 ≤ p.winH ∧ p.winH ≤ 16384)
    (hwinW : 5 ≤ p.winW ∧ p.winW ≤ 16384) (hcell : 1 ≤ p.cellBits ∧ p.cellBits ≤ 8) (hin : 1 ≤ p.inDepth)
    (hout : 1 ≤ p.outDepth) (hkernel : p.kernel.admissible = true) : p.admissible = true := by
  have hsizes : ([.winHRange, .winWRange, .cellBitsRange, .inDepthRange, .outDepthRange] : List Check).all
      (fun c => c.passes p) = true := by
    simp [Check.passes, hwinH, hwinW, hcell, hin, hout]
  have htable : Check.kernelChecks.all (fun c => c.passes p) = true :=
    List.all_eq_true.2 fun c hc => (Check.passes_kernel_only p hc).trans (List.all_eq_true.1 hkernel c hc)
  rw [Params.admissible, Check.all, List.all_append, hsizes, htable, Bool.and_self]

/-- The machine's table is the free one where that is admissible, and an admissible one otherwise (R88). -/
theorem Config.kernel_admissible : Config.kernel.admissible = true := by
  rw [Config.kernel]
  split
  case isTrue hfree => exact hfree
  case isFalse => decide

/-- Settles O30: each size is a remainder shifted into its range, and the table is admissible. -/
theorem configIsAdmissible : Obligations.ConfigIsAdmissible := by
  have hadm : Config.params.admissible = true := by
    refine Params.admissible_of_ranges ?_ ?_ ?_ ?_ ?_ Config.kernel_admissible <;> simp only [Config.params] <;> omega
  exact ⟨hadm, (Params.refusedBy_eq_nil_iff _).2 hadm⟩

end Sys2Proof

/-!
PROOFS. Turns and the command port (spec/10_state.md R22, R43; spec/42_driver.md R117, R125): what a step does with each
form of turn, what becomes of an offer met during a frame or a fault, and that no transaction stops the machine.
-/

namespace Sys2Proof.Machine

/-! ### Every state has a next state -/

/-- Every transaction answers a next state: it is enabled or holds (R16, R17). -/
theorem exists_exec_eq_next (i : Instr) (s : State) : ∃ t, exec i s = .next t := by
  obtain ⟨effect, hexec⟩ := exec_eq_transact i s
  exact ⟨_, hexec⟩

/-- Settles O43: a step is a transaction, or leaves its turn's state. -/
theorem everyStateHasANextState : Obligations.EveryStateHasANextState := by
  refine ⟨exists_exec_eq_next, fun s => ?_⟩
  unfold step
  split
  · exact exists_exec_eq_next _ _
  · exact ⟨_, rfl⟩

/-! ### A step runs its turn -/

section Turn

variable {s : State} {t : Turn} {rest : List Turn} (hagenda : s.agenda = t :: rest)
include hagenda

/-- A turn with a transaction runs it in the turn's state (R14). -/
theorem step_of_turnInstr_some {i : Instr} (h : turnInstr Config.params { s with agenda := rest } t = some i) :
    step s = exec i (turnState { s with agenda := rest } t) := by
  unfold step
  rw [nextTurn_cons hagenda]
  simp only [h]

/-- A turn without a transaction leaves the turn's state. -/
theorem step_of_turnInstr_none (h : turnInstr Config.params { s with agenda := rest } t = none) :
    step s = .next (turnState { s with agenda := rest } t) := by
  unfold step
  rw [nextTurn_cons hagenda]
  simp only [h]

end Turn

/-- The transaction at the port is the decoding of the offer there (R117). -/
theorem portInstr_of_some {s : State} {o : Offer} (h : s.cmdOffer = some o) (cfg : Params) :
    portInstr cfg s = some (decodeCommand o.word (Window.ofBits cfg o.winBits)) := by
  rw [portInstr, h, Option.map_some, decode]

/-- At an empty port there is no transaction. -/
theorem portInstr_of_none {s : State} (h : s.cmdOffer = none) (cfg : Params) : portInstr cfg s = none := by
  rw [portInstr, h, Option.map_none]

section Port

variable {s : State} {o : Offer} {rest : List Turn}

/-- A fresh offer at an empty port stands there and is run (R117). -/
theorem step_of_fresh_offer (hagenda : s.agenda = .act (.command o) :: rest) (hport : s.cmdOffer = none)
    (hopen : s.commandsEnded = false) :
    step s = exec (decodeCommand o.word (Window.ofBits Config.params o.winBits))
      { s with agenda := rest, cmdOffer := some o } := by
  have hput : presentOffer o { s with agenda := rest } = { s with agenda := rest, cmdOffer := some o } :=
    presentOffer_empty hport hopen
  have hinstr : turnInstr Config.params { s with agenda := rest } (.act (.command o)) =
      some (decodeCommand o.word (Window.ofBits Config.params o.winBits)) := by
    rw [turnInstr, hput]
    exact portInstr_of_some rfl _
  rw [step_of_turnInstr_some hagenda hinstr, turnState, hput]

/-- After the end of the host's commands a fresh one is not offered (R125). -/
theorem step_of_offer_ended (hagenda : s.agenda = .act (.command o) :: rest) (hport : s.cmdOffer = none)
    (hended : s.commandsEnded = true) : step s = .next { s with agenda := rest } := by
  have hput : presentOffer o { s with agenda := rest } = { s with agenda := rest } := presentOffer_ended hended
  have hinstr : turnInstr Config.params { s with agenda := rest } (.act (.command o)) = none := by
    rw [turnInstr, hput]
    exact portInstr_of_none hport _
  rw [step_of_turnInstr_none hagenda hinstr, turnState, hput]

/-- A command step, or a turn with a fresh offer, runs the offer that stands at the port (R117). -/
theorem step_of_held_offer {t : Turn} (hport : s.cmdOffer = some o)
    (ht : t = .commandStep ∨ ∃ o', t = .act (.command o')) (hagenda : s.agenda = t :: rest) :
    step s = exec (decodeCommand o.word (Window.ofBits Config.params o.winBits)) { s with agenda := rest } := by
  have hinstr : portInstr Config.params { s with agenda := rest } =
      some (decodeCommand o.word (Window.ofBits Config.params o.winBits)) := portInstr_of_some hport _
  rcases ht with rfl | ⟨o', rfl⟩
  · exact step_of_turnInstr_some hagenda hinstr
  · have hput : presentOffer o' { s with agenda := rest } = { s with agenda := rest } := presentOffer_held hport
    rw [step_of_turnInstr_some hagenda (by rw [turnInstr, hput, hinstr]), turnState, hput]

end Port

/-- An empty agenda is served by the free schedule (R22, R135). -/
theorem step_of_empty_agenda {s : State} (hagenda : s.agenda = []) :
    step s = step { s with agenda := [Config.schedule s.turns], turns := s.turns + 1 } := by
  have hnext : nextTurn s = nextTurn { s with agenda := [Config.schedule s.turns], turns := s.turns + 1 } := by
    rw [nextTurn_nil hagenda, nextTurn_cons rfl, ← hagenda]
  unfold step
  rw [hnext]

/-- Settles O40: one clause for each form of turn and of the port. -/
theorem stepRunsTheTurn : Obligations.StepRunsTheTurn :=
  ⟨fun _ _ _ ha hagenda => step_act hagenda ha, fun _ _ _ => step_of_fresh_offer, fun _ _ _ => step_of_offer_ended,
    fun _ _ _ _ => step_of_held_offer,
    fun _ _ hport hagenda => step_of_turnInstr_none hagenda (portInstr_of_none hport _),
    fun _ _ hagenda => step_of_turnInstr_none hagenda rfl, fun _ => step_of_empty_agenda⟩

/-- Settles O41: the word stands at the port as an offer, and the command step is the next turn. -/
theorem fetchWordRunsNext : Obligations.FetchWordRunsNext := by
  intro s w i hword
  obtain rfl : decode Config.params (.command ⟨BitVec.ofNat 32 w, 0⟩) = i := Option.some.inj hword
  exact step_of_held_offer (s := s.withFetchWord 32 w) rfl (.inl rfl) rfl

/-! ### An offer held and then accepted -/

/-- A command word decodes to a command, which has a word. -/
theorem commandWord_decodeCommand_ne_none (cmd : Word) (win : Window) : commandWord (decodeCommand cmd win) ≠ none := by
  rw [decodeThenEncodeWord cmd win]
  exact Option.some_ne_none cmd

/-- FRAME_START's effect does not write the port. -/
@[simp] theorem frameStart_cmdOffer (h w : BitVec 14) (s : State) : (frameStart h w s).cmdOffer = s.cmdOffer := by
  rcases frameStart_cases h w s with ⟨_, heq⟩ | ⟨_, _, heq⟩ <;> rw [heq]
  rfl

/-- EVAL's effect does not write the port. -/
@[simp] theorem evalCommand_cmdOffer (cfg : Params) (row col : BitVec 14) (win : Window) (s : State) :
    (evalCommand cfg row col win s).cmdOffer = s.cmdOffer := by
  rcases evalCommand_cases cfg row col win s with ⟨_, _, heq⟩ | ⟨_, heq⟩ <;> rw [heq]
  rfl

/-- Every command is a command step with an effect of its own, which does not write the port (R117). -/
theorem exec_command_eq {i : Instr} (hcommand : commandWord i ≠ none) (s : State) :
    ∃ effect, exec i s = commandStep effect s ∧ ∀ u, (effect u).cmdOffer = u.cmdOffer := by
  cases i
  case frameStart h w => exact ⟨_, rfl, frameStart_cmdOffer h w⟩
  case eval row col win => exact ⟨_, rfl, evalCommand_cmdOffer Config.params row col win⟩
  case reservedOp0 | reservedOp3 | reservedOp4To7 | reservedOp8ToF => exact ⟨_, rfl, fun _ => rfl⟩
  all_goals exact absurd rfl hcommand

/-- A command accepted at a ready port leaves the port empty (R117). -/
theorem cmdOffer_of_exec_command {i : Instr} (hcommand : commandWord i ≠ none) {s t : State} (hexec : exec i s = .next t)
    (idle : s.busy = false) (sound : s.fault = false) : t.cmdOffer = none := by
  obtain ⟨effect, heq, hport⟩ := exec_command_eq hcommand s
  obtain rfl := Host.Outcome.next.inj ((heq.symm.trans hexec).symm.trans (commandStep_of_ready idle sound))
  exact hport (takeOffer s)

/-- An accepted word with opcode 1 has the effect of FRAME_START with its fields (R69, R74, R110). -/
theorem exec_frameStart_word {cmd : Word} (hop : fieldOp cmd = 1#4) (win : Window) {s : State} (idle : s.busy = false)
    (sound : s.fault = false) :
    exec (decodeCommand cmd win) s = .next (frameStart (fieldA cmd) (fieldB cmd) (takeOffer s)) := by
  obtain ⟨hframe, -, -⟩ := decodeFollowsOpcode cmd win
  rw [hframe hop]
  exact commandStep_of_ready idle sound

/-- An accepted word with opcode 2 has the effect of EVAL with its fields and the window (R70, R74, R101). -/
theorem exec_eval_word {cmd : Word} (hop : fieldOp cmd = 2#4) (win : Window) {s : State} (idle : s.busy = false)
    (sound : s.fault = false) :
    exec (decodeCommand cmd win) s =
      .next (evalCommand Config.params (fieldA cmd) (fieldB cmd) win (takeOffer s)) := by
  obtain ⟨-, heval, -⟩ := decodeFollowsOpcode cmd win
  rw [heval hop]
  exact commandStep_of_ready idle sound

/-- Settles O42: a held command changes nothing but the port it was put on, and an accepted one has the effect that the
meaning of its row gives its fields. -/
theorem offerHeldUntilReady : Obligations.OfferHeldUntilReady := by
  refine ⟨fun s o rest hport hopen hagenda hheld => ?_, fun s o rest hport hagenda hheld => ?_,
    fun s o rest hport hagenda idle sound => ?_⟩
  · rw [step_of_fresh_offer hagenda hport hopen]
    exact exec_command_held (commandWord_decodeCommand_ne_none _ _) hheld
  · rw [step_of_held_offer hport (.inl rfl) hagenda]
    exact exec_command_held (commandWord_decodeCommand_ne_none _ _) hheld
  · have hstep := step_of_held_offer hport (.inl rfl) hagenda
    obtain ⟨t, hexec⟩ := exists_exec_eq_next (decodeCommand o.word (Window.ofBits Config.params o.winBits))
      { s with agenda := rest }
    have hnext : ∀ {u}, exec (decodeCommand o.word (Window.ofBits Config.params o.winBits)) { s with agenda := rest } =
        .next u → t = u := fun hu => Host.Outcome.next.inj (hexec.symm.trans hu)
    refine ⟨hstep, t, hstep.trans hexec,
      cmdOffer_of_exec_command (commandWord_decodeCommand_ne_none _ _) hexec idle sound, fun hop hheight hwidth => ?_,
      fun hop hzero => ?_, fun hop hrow hcol => ?_, fun hop hout => ?_, fun hop1 hop2 => ?_⟩
    · rw [hnext (exec_frameStart_word hop _ idle sound), frameStart_of_ne_zero hheight hwidth]
      rfl
    · rw [hnext (exec_frameStart_word hop _ idle sound), frameStart_of_zero hzero, frameStartWord_fields hop]
      rfl
    · rw [hnext (exec_eval_word hop _ idle sound), evalCommand_of_inside hrow hcol]
      rfl
    · rw [hnext (exec_eval_word hop _ idle sound), evalCommand_of_outside (by omega), evalWord_fields hop]
      rfl
    · exact hnext (exec_of_reserved_of_ready (decodeThenEncodeWord _ _) hop1 hop2 idle sound)

end Sys2Proof.Machine

/-!
PROOFS. The window source's and the host's transactions as whole next states (spec/42_driver.md R113, R116, R118;
spec/70_reset_and_hazards.md R150), and the end of a run (spec/42_driver.md R125).
-/

namespace Sys2Proof.Machine

/-! ### The window source and the host -/

/-- Settles O7: a pending request is answered, and without one WS_ANSWER holds. -/
theorem wsAnswerMeaning : Obligations.WsAnswerMeaning := ⟨fun _ _ => exec_wsAnswer, fun _ => exec_wsAnswer_held⟩

/-- Settles O9: POP is enabled exactly when F_OUT has a head. -/
theorem popMeaning : Obligations.PopMeaning := by
  refine ⟨fun s f rest hout => ?_, fun s hempty => ?_⟩
  · calc exec .pop s
        = transact (popEnabled s) (popFlag s) s := rfl
      _ = .next { s with fOut := rest, popped := s.popped ++ [f] } := by
          rw [popEnabled, hout, List.isEmpty_cons, Bool.not_false, transact_true, popFlag_cons hout]
  · exact disabledTransactionsHold .pop s (by rw [instrEnabled, popEnabled, hempty, List.isEmpty_nil, Bool.not_true])

/-- Settles O10: READ is enabled in every state. -/
theorem readMeaning : Obligations.ReadMeaning := fun n s => transact_true (readStatus n s) s

/-- Settles O12: RESET is enabled in every state, and its effect is the launch state with the schedule kept. -/
theorem resetGivesLaunchState : Obligations.ResetGivesLaunchState := exec_reset

/-! ### The end of a run -/

theorem State.finished_iff (s : State) : s.finished = true ↔ s.fault = false ∧ s.busy = false ∧ s.wsReq = none ∧
    s.wsRsp = none ∧ s.cmdOffer = none ∧ s.commandsEnded = true := by
  simp [State.finished, and_assoc]

/-- Before its transaction, a turn of a finished run touches only the schedule: no offer is put on the port, and the
commands have ended already (R125). -/
theorem turnState_nextTurn_of_finished {s : State} (hfin : s.finished = true) :
    ∃ rest n, turnState (nextTurn s).2 (nextTurn s).1 = { s with agenda := rest, turns := n } := by
  obtain ⟨_, _, _, _, _, hended⟩ := s.finished_iff.1 hfin
  obtain ⟨rest, n, hnext⟩ := nextTurn_state s
  refine ⟨rest, n, ?_⟩
  rcases turnState_cases (nextTurn s).2 (nextTurn s).1 with heq | ⟨_, _, hopen, _⟩ | heq
  · rw [heq, hnext]
  · rw [hnext] at hopen
    exact Bool.noConfusion (hopen.symm.trans hended)
  · rw [heq, hnext, endCommands, ← hended]

/-- A finished run's transactions are the host's, on the streams and the status bundle: they keep it finished, and a popped
flag moves from one end of the result's flags to the other (R125). -/
theorem Transition.of_finished {i : Instr} {s t : State} (h : Transition s i t) (hfin : s.finished = true)
    (hcommand : commandWord i = none) (hreset : i ≠ .reset) : t.finished = true ∧ t.result = s.result := by
  obtain ⟨_, idle, hreq, _, _, _⟩ := s.finished_iff.1 hfin
  cases h with
  | frameStart | frameZero | eval | evalOffset => exact absurd hcommand (Option.some_ne_none _)
  | reserved _ _ hword => exact absurd (hword.symm.trans hcommand) (Option.some_ne_none _)
  | issue running | completeInner running | completeLast running | sourceOffset running =>
    exact Bool.noConfusion (idle.symm.trans running)
  | answer hpending => exact absurd (hpending.symm.trans hreq) (Option.some_ne_none _)
  | push | read | hold => exact ⟨hfin, rfl⟩
  | @pop f rest hout =>
    have hflags : (s.popped ++ [f]) ++ rest = s.popped ++ s.fOut := by
      rw [hout, List.append_assoc, List.singleton_append]
    exact ⟨hfin, congrArg (fun flags => { s.result with flags := flags }) hflags⟩
  | reset => exact absurd rfl hreset

/-- Settles O23: with the port empty and the commands ended a turn brings no command, the other transactions keep the
result, and RESET clears the host's end of commands. -/
theorem finishedRunKeepsItsResult : Obligations.FinishedRunKeepsItsResult := by
  refine ⟨State.finished_iff, fun s => ⟨rfl, rfl, rfl, rfl⟩, fun s t hfin hstep => ⟨fun hturn => ?_, fun hturn => ?_⟩⟩
  · obtain ⟨_, _, _, _, hempty, _⟩ := s.finished_iff.1 hfin
    obtain ⟨rest, n, hstate⟩ := turnState_nextTurn_of_finished hfin
    rcases step_cases hstep with ⟨i, hinstr, hexec⟩ | ⟨_, rfl⟩
    · have hcommand : commandWord i = none := by
        by_contra hne
        have hport := turnInstr_command hinstr hne
        rw [hstate] at hport
        exact hport hempty
      have hreset : i ≠ .reset := by
        rintro rfl
        exact hturn (turnInstr_reset hinstr)
      rw [hstate] at hexec
      exact (exec_transition hexec).of_finished hfin hcommand hreset
    · rw [hstate]
      exact ⟨hfin, rfl⟩
  · obtain rfl := Host.Outcome.next.inj ((step_of_reset hturn).symm.trans hstep)
    exact ⟨rfl, rfl⟩

end Sys2Proof.Machine
